-- ==== Sys2Proof/Word.lean ====
section
/-! DEFINITION. The widths of the block's quantities (00_scope.md R6, R9): 8-bit bytes, 32-bit words, and the
lookup table of 256 words (10_state.md R16). -/

namespace Sys2Proof

/-- A byte, 8 bits (R9). -/
abbrev Byte := BitVec 8

/-- ACC_BITS = 32: the width of the accumulator, of a table entry and of a checksum (R6). -/
abbrev Word := BitVec 32

/-- TABLE: 256 entries of 32 bits, index 0 to 255 (R16). -/
abbrev Table := Vector Word 256

end Sys2Proof
end

