-- ==== Sys2Proof/Config.lean ====
section
/-! DEFINITION. What an instance of the block fixes (00_scope.md R6, R7, R8) and the values the spec leaves
unspecified (10_state.md R23), which are opaque here. -/

namespace Sys2Proof

/-- SEQ_BITS, 3 or 8 (R7, 92_eei_decisions.md D14). -/
inductive SeqBits where
  | three
  | eight
  deriving DecidableEq, Repr

/-- The number of bits SEQ_BITS stands for. -/
def SeqBits.bits : SeqBits → Nat
  | .three => 3
  | .eight => 8

/-- FRAME_TRAILING_BYTES (R7, 92_eei_decisions.md D19). -/
inductive TrailingBytes where
  | ignore
  | reject
  deriving DecidableEq, Repr

/-- The parameters R7 leaves open, constant for the life of an instance (R24). POLY is not among them: it is an
operand of BUILD_TABLE and a register. MAX_PAYLOAD_LEN is 0 to 65535 by its type. -/
structure Params where
  sofValue      : Byte
  eofValue      : Byte
  maxPayloadLen : Fin 65536
  seqBits       : SeqBits
  trailing      : TrailingBytes
  deriving DecidableEq, Repr

/-- EX1, the spec's example instance (R8). DESIGN CHOICE (log 2), unsafe: State.reset takes it for want of any
value in the spec; no statement rests on its values. -/
def Params.ex1 : Params :=
  { sofValue := 0xAA, eofValue := 0xBB, maxPayloadLen := 128, seqBits := .eight, trailing := .ignore }

namespace Config

/-- ACC_INIT (R6). -/
def accInit : Word := 0xFFFFFFFF

/-- XOR_OUT (R6). -/
def xorOut : Word := 0xFFFFFFFF

/-- GROUP_BYTES (R6). -/
def groupBytes : Nat := 4

/-- FRAME_OVERHEAD: bytes of a packed frame other than the payload (R6, 90_conflicts.md C1). -/
def frameOverhead : Nat := 14

/-- ACK_RECORD_SIZE (R6). -/
def ackRecordSize : Nat := 262

/-- ERROR_MESSAGE_SIZE (R6). -/
def errorMessageSize : Nat := 256

/-- What POLY holds after the n-th reset: unspecified (R23, R110), a free value (log 3). -/
opaque unspecifiedPoly : Nat → Word

/-- What TABLE holds after the n-th reset: unspecified, "a model must not give the entries a value" (R23, R110),
a free value (log 3). -/
opaque unspecifiedTable : Nat → Table

end Config

end Sys2Proof
end

