-- ==== Sys2Proof/Syntax.lean ====
section
/-! DEFINITION. The operations of the block with their operands by value (30_encoding.md R39, R40), the two value
types they pass (10_state.md R21, R22), and the command the host presents (00_scope.md R11). -/

namespace Sys2Proof

/-- The raw record of a Frame value: eight fields (R21). Whether it IS a Frame under an instance's parameters and
the table it was made under is `Machine.frameInvariant`, and the type of records that are is `Machine.FrameValue`. -/
structure Frame where
  sof         : Byte
  frameType   : Byte
  datagramId  : BitVec 32
  sequenceNum : Byte
  payloadLen  : BitVec 16
  payload     : List Byte
  crc32       : Word
  eof         : Byte
  deriving DecidableEq, Repr

/-- The raw record of an Ack value: four fields (R22). -/
structure Ack where
  ackStatus      : Byte
  responseToType : Byte
  errorCode      : BitVec 32
  errorMessage   : List Byte
  deriving DecidableEq, Repr

/-- One constructor per row of the operation table (R40), its operands the row's. FRAME_NEW's three numbers are
naturals of no fixed width (R60, 92_eei_decisions.md D15). -/
inductive Instr where
  | buildTable (poly : Word)
  | checksum (data : List Byte)
  | frameNew (frameType datagramId sequenceNum : Nat) (payload : List Byte)
  | framePack (f : Frame)
  | frameUnpack (b : List Byte)
  | ackParse (b : List Byte)
  | ackIsAck (a : Ack)
  | reserved7
  deriving DecidableEq, Repr

/-- The operand ports: one for each kind of operand R40 lists, each read only by the operations that take it.
`bytes` is the operand byte buffer IN of 20_memory.md R25. `madeUnder` is no operand of any operation: it is the
polynomial of the table the Frame on the port was made under (R21 (f), 41_frame.md R69), which the host that holds a
Frame value can say (R14), and by which a record that is no Frame is told from one. DESIGN CHOICE (log 5). -/
structure Ports where
  poly        : Word
  bytes       : List Byte
  frameType   : Nat
  datagramId  : Nat
  sequenceNum : Nat
  frame       : Frame
  madeUnder   : Word
  ack         : Ack
  deriving DecidableEq, Repr

/-- What the host presents: the 3-bit select code and the operands by value (R39 (a), R40). -/
structure Command where
  op    : BitVec 3
  ports : Ports
  deriving DecidableEq, Repr

/-- The Frame with an empty payload and zero in every field the host chooses, under given parameters. -/
def Frame.empty (p : Params) : Frame :=
  { sof := p.sofValue, frameType := 0, datagramId := 0, sequenceNum := 0, payloadLen := 0, payload := [],
    crc32 := 0, eof := p.eofValue }

/-- The Ack of an all-zero record. -/
def Ack.empty : Ack :=
  { ackStatus := 0, responseToType := 0, errorCode := 0, errorMessage := [] }

/-- Every operand port at zero. DESIGN CHOICE (log 7): the Frame port's zero is `Frame.empty` of the instance
State.reset is, since a Frame value has its two sentinels fixed (R21 (a), (b)). -/
def Ports.zero : Ports :=
  { poly := 0, bytes := [], frameType := 0, datagramId := 0, sequenceNum := 0,
    frame := Frame.empty Params.ex1, madeUnder := 0, ack := Ack.empty }

end Sys2Proof
end

