-- ==== Sys2Proof/Machine/State.lean ====
section
/-! DEFINITION. The state of the block (10_state.md R13), the results an operation ends with (60_exceptions.md R95),
and what the host presents (00_scope.md R11, 70_reset_and_hazards.md R110). Plain data throughout. -/

namespace Sys2Proof.Machine

/-- The sub-causes of ConstructionError (R96). -/
inductive ConstructionCause where
  | frameTypeRange
  | datagramIdRange
  | sequenceRange
  | payloadTooLarge
  deriving DecidableEq, Repr

/-- The sub-causes of ParseError (R97). -/
inductive ParseCause where
  | shortBuffer
  | badSOF
  | lengthField
  | trailingBytes
  | badEOF
  | sequenceRange
  deriving DecidableEq, Repr

/-- The five error kinds, with what each records (R95). -/
inductive Error where
  | constructionError (cause : ConstructionCause)
  | parseError (cause : ParseCause)
  | checksumFailure
  | tableNotBuilt
  | illegalOperation
  deriving DecidableEq, Repr

/-- The value an operation returns with OK (R40): nothing, a 32-bit checksum, a Frame value, the bytes OUT, an Ack
value, or one bit. -/
inductive Value where
  | none
  | word (v : Word)
  | frame (f : Frame)
  | bytes (out : List Byte)
  | ack (a : Ack)
  | bit (v : Bool)
  deriving DecidableEq, Repr

/-- What an operation ends with: OK and its value, or exactly one error (R95). -/
inductive Result where
  | ok (v : Value)
  | error (e : Error)
  deriving DecidableEq, Repr

/-- What the host does to the block: it presents an operation (R11), or resets the block between operations
(R110). -/
inductive HostEvent where
  | present (c : Command)
  | reset
  deriving DecidableEq, Repr

/-- The state. `poly`, `table` and `tableValid` are all the state the spec gives the block (R13). The other four are
the model's (log 1, 2, 3): the instance's parameters, which no step writes (R24); what the host will present, oldest
first; what the operation of the last step returned, which no step reads and no step keeps (R18, R19); and the number of
resets, at which the unspecified contents are drawn. -/
structure State where
  poly       : Word
  table      : Table
  tableValid : Bool
  params     : Params
  pending    : List HostEvent
  result     : Option Result
  resets     : Nat
  deriving DecidableEq, Repr

/-- Why the machine would stop with a fault: there is no reason. Every error of the spec is a result after which the
block accepts the next operation (R101, R102), so no one raises a fault and the type has no constructor: nothing is
lost by it, so safe. -/
inductive Fault where
  deriving DecidableEq, Repr

/-- Why an operation has no meaning. -/
inductive Refusal where
  /-- Raised by an arm of `exec` for an instruction the model has not reached; safe, since nothing is claimed of
  it. No arm raises it. -/
  | notModelled (mnemonic : String)
  /-- Raised by `fetch` when the host presents FRAME_PACK with a record that is no Frame under the instance's
  parameters and the table it is said to be made under (R21, 93_implementation_defined.md U15: no such operand exists);
  safe, since the machine stops. -/
  | notAFrame
  /-- Raised by `fetch` when the host presents ACK_IS_ACK with a record that is no Ack value (R22: only ACK_PARSE makes
  them); safe, since the machine stops. -/
  | notAnAck
  deriving DecidableEq, Repr

/-- The block right after its first reset (R23, R110): TABLE_VALID 0, TABLE and POLY unspecified. DESIGN CHOICE for
the model's own fields (log 1, 2, 3). -/
def State.reset : State :=
  { poly := Config.unspecifiedPoly 0, table := Config.unspecifiedTable 0, tableValid := false,
    params := Params.ex1, pending := [], result := none, resets := 0 }

end Sys2Proof.Machine
end

