-- ==== Sys2Proof/Machine/Ops.lean ====
section
/-! DEFINITION. The named operations over the state: reading TABLE for a checksum, writing the three registers,
ending an operation with a value or with an error, and reset. -/

namespace Sys2Proof.Machine

/-- TABLE[i]: the block's only register-file read (00_scope.md R10, 10_state.md R16). -/
def readEntry (t : Table) (i : Byte) : Word :=
  t[i.toNat]'i.isLt

/-- BUILD_TABLE's three writes, in one step (40_checksum.md R50): all 256 entries, POLY, TABLE_VALID. -/
def State.loadTable (poly : Word) (t : Table) (s : State) : State :=
  { s with poly := poly, table := t, tableValid := true }

/-- `return v`: the operation ends with status OK and result v (R10). No register is written. -/
def State.complete (v : Value) (s : State) : State :=
  { s with result := some (.ok v) }

/-- `raise K(c)`, the one way an operation ends with an error (60_exceptions.md R101): the outcome goes to the result
port and nothing else happens; there is no saved register, mode, mask or vector, and no return from it (R102). -/
def State.raise (e : Error) (s : State) : State :=
  { s with result := some (.error e) }

/-- The end of an operation whose rule computes a value or raises. -/
def State.answer (r : Except Error Value) (s : State) : State :=
  match r with
  | .ok v => s.complete v
  | .error e => s.raise e

/-- The state a step starts its work in: the event taken off, and nothing left of an earlier outcome. "No outcome is
latched" (10_state.md R19), and no result is kept for the next operation to read (R18). -/
def State.takeEvent (rest : List HostEvent) (s : State) : State :=
  { s with pending := rest, result := none }

/-- Reset, presented by the host between operations (70_reset_and_hazards.md R110): TABLE_VALID becomes 0, TABLE and
POLY become unspecified (a fresh free value each, log 3), no result is held (10_state.md R23). The parameters are the
instance's and stay (R24); so does what the host presents next (log 10). -/
def State.resetEvent (s : State) : State :=
  { s with
    poly := Config.unspecifiedPoly (s.resets + 1), table := Config.unspecifiedTable (s.resets + 1),
    tableValid := false, result := none, resets := s.resets + 1 }

end Sys2Proof.Machine
end

