-- ==== Sys2Proof/Machine/Operands.lean ====
section
/-! DEFINITION. Byte buffers: reads at an offset and little-endian numbers (00_scope.md R10, 20_memory.md R25 to R31).
A buffer is a list of bytes with its own length; it is no state. -/

namespace Sys2Proof.Machine

/-- `buf[i]`. Used only where a rule's earlier check has shown `i < len(buf)` (20_memory.md R31); the 0 beyond the
end is then never taken (log 15). -/
def byteAt (buf : List Byte) (i : Nat) : Byte :=
  buf.getD i 0

/-- `buf[a..b)`: the bytes with index a up to but not including b (R9). -/
def slice (buf : List Byte) (a b : Nat) : List Byte :=
  (buf.take b).drop a

/-- The number a byte sequence is, lowest byte first: the sum of buf[i] * 256^i. -/
def leValue : List Byte → Nat
  | [] => 0
  | x :: xs => x.toNat + 256 * leValue xs

/-- MemRead(buf + off, n): n bytes as one little-endian number (R10). -/
def memRead (buf : List Byte) (off n : Nat) : Nat :=
  leValue (slice buf off (off + n))

/-- le_n(v): the n-byte little-endian byte sequence of v (R10), what MemWrite writes. -/
def leBytes : Nat → Nat → List Byte
  | 0, _ => []
  | n + 1, v => BitVec.ofNat 8 v :: leBytes n (v / 256)

/-- trim_nul(m): m without its trailing 0x00 bytes (42_ack.md R71). -/
def trimNul (m : List Byte) : List Byte :=
  (m.reverse.dropWhile (· == 0)).reverse

end Sys2Proof.Machine
end

