-- ==== Sys2Proof/Machine/Flags.lean ====
section
/-! DEFINITION. The block has no flags (10_state.md R19): the outcome of an operation is its result. Here are the result
codes (60_exceptions.md R95) and the status classes of an acknowledgment (42_ack.md R73). -/

namespace Sys2Proof.Machine

/-- The code of an error kind (R95). -/
def errorCode : Error → Nat
  | .constructionError _ => 1
  | .parseError _ => 2
  | .checksumFailure => 3
  | .tableNotBuilt => 4
  | .illegalOperation => 5

/-- The code of a result: 0 for OK (R95). -/
def resultCode : Result → Nat
  | .ok _ => 0
  | .error e => errorCode e

/-- The three status classes (R73). -/
inductive AckClass where
  | ack
  | nack
  | unknown
  deriving DecidableEq, Repr

/-- ACK_CLASS a (R73, 30_encoding.md R49): 0 is ACK, 1 is NACK, 2 to 255 are UNKNOWN. -/
def ackClass (a : Ack) : AckClass :=
  if a.ackStatus = 0 then .ack else if a.ackStatus = 1 then .nack else .unknown

end Sys2Proof.Machine
end

