-- ==== Sys2Proof/Machine/AckDecoder.lean ====
section
/-! DEFINITION. The acknowledgment decoder AD (42_ack.md): ACK_PARSE and ACK_IS_ACK. It reads no state and no
parameter. -/

namespace Sys2Proof.Machine

/-- ACK_PARSE's value (R70): too short a buffer is the only error; the fields stand at the offsets of 30_encoding.md
R44; bytes from offset 262 on are not read (R74). -/
def ackParse (b : List Byte) : Except Error Ack :=
  if b.length < Config.ackRecordSize then .error (.parseError .shortBuffer)
  else .ok
    { ackStatus := byteAt b 0
      responseToType := byteAt b 1
      errorCode := BitVec.ofNat 32 (memRead b 2 4)
      errorMessage := trimNul (slice b 6 Config.ackRecordSize) }

/-- ACK_PARSE (R70). -/
def execAckParse (b : List Byte) (s : State) : Host.Outcome State Fault Refusal :=
  .next (s.answer ((ackParse b).map .ack))

/-- ACK_IS_ACK's bit (R72): 1 exactly when ack_status is 0. -/
def ackIsAck (a : Ack) : Bool :=
  a.ackStatus == 0

/-- ACK_IS_ACK (R72). Its operand is an Ack value; `fetch` refuses a record that is none. -/
def execAckIsAck (a : Ack) (s : State) : Host.Outcome State Fault Refusal :=
  .next (s.complete (.bit (ackIsAck a)))

end Sys2Proof.Machine
end

