-- ==== Sys2Proof/Machine/ChecksumEngine.lean ====
section
/-! DEFINITION. The checksum engine CE (40_checksum.md): BUILD_TABLE and CHECKSUM, and the function `checksum` that the
frame unit and the host use too (R59). -/

namespace Sys2Proof.Machine

/-- One of the eight steps of a table entry: shift left, and exclusive-or the generator in when bit 31 was set (R51). -/
def entryStep (poly c : Word) : Word :=
  if c.msb then (c <<< 1) ^^^ poly else c <<< 1

/-- crc_entry(poly, i): i in bits 31 to 24, then eight steps (R51). UNVERIFIED against the source (log 11), unsafe. -/
def crcEntry (poly : Word) (i : Byte) : Word :=
  (entryStep poly)^[8] (i.setWidth 32 <<< 24)

/-- The 256 entries BUILD_TABLE writes, entry 0 first (R50). -/
def tableOf (poly : Word) : Table :=
  ⟨⟨(List.range 256).map fun i => crcEntry poly (BitVec.ofNat 8 i)⟩, by simp⟩

/-- BUILD_TABLE (R50): writes TABLE, POLY and TABLE_VALID; cannot fail. -/
def execBuildTable (poly : Word) (s : State) : Host.Outcome State Fault Refusal :=
  .next ((s.loadTable poly (tableOf poly)).complete .none)

/-- TIDX: (acc >> 24) ^ byte, 8 bits (30_encoding.md R46). -/
def tableIndex (acc : Word) (b : Byte) : Byte :=
  (acc >>> 24).setWidth 8 ^^^ b

/-- fold(acc, byte) (R53). -/
def fold (t : Table) (acc : Word) (b : Byte) : Word :=
  (acc <<< 8) ^^^ readEntry t (tableIndex acc b)

/-- The byte at position j of the padded input: 0x00 at and beyond the end (R52, R54). -/
def inputByte (data : List Byte) (j : Nat) : Byte :=
  if j < data.length then byteAt data j else 0

/-- The four bytes of group g in the order they are fed: position 3, 2, 1, 0 (R52, 20_memory.md R28). -/
def groupFeed (data : List Byte) (g : Nat) : List Byte :=
  [3, 2, 1, 0].map fun k => inputByte data (Config.groupBytes * g + k)

/-- ceil(n / 4) (R52). -/
def groupCount (n : Nat) : Nat :=
  (n + 3) / Config.groupBytes

/-- checksum(data) under a table (R52): groups in ascending order, each fed backwards, from ACC_INIT, complemented. -/
def checksum (t : Table) (data : List Byte) : Word :=
  ((List.range (groupCount data.length)).foldl (fun acc g => (groupFeed data g).foldl (fold t) acc) Config.accInit)
    ^^^ Config.xorOut

/-- The checksum under the table in force, or TableNotBuilt when no table has been built (R52, 60_exceptions.md R99). -/
def checksumNow (s : State) (data : List Byte) : Except Error Word :=
  if s.tableValid then .ok (checksum s.table data) else .error .tableNotBuilt

/-- CHECKSUM (R52). -/
def execChecksum (data : List Byte) (s : State) : Host.Outcome State Fault Refusal :=
  .next (s.answer ((checksumNow s data).map .word))

end Sys2Proof.Machine
end

