-- ==== Sys2Proof/Machine/FrameUnit.lean ====
section
/-! DEFINITION. The frame formatter and parser FF (41_frame.md): FRAME_NEW, FRAME_PACK, FRAME_UNPACK. -/

namespace Sys2Proof.Machine

/-- The part of the Frame invariant that is about the record and the parameters alone: R21 (a) to (e). -/
def frameShape (p : Params) (f : Frame) : Bool :=
  f.sof == p.sofValue
    && f.eof == p.eofValue
    && f.payloadLen.toNat == f.payload.length
    && decide (f.payload.length ≤ p.maxPayloadLen.val)
    && decide (f.sequenceNum.toNat < 2 ^ p.seqBits.bits)

/-- The Frame invariant under a table, R21 (a) to (f), as a decidable check. -/
def frameInvariant (p : Params) (t : Table) (f : Frame) : Bool :=
  frameShape p f && f.crc32 == checksum t f.payload

/-- The Frame type of R21: the record with a proof of the check, under the parameters and the table it was made under
(41_frame.md R69). Two are equal when all eight fields are. -/
abbrev FrameValue (p : Params) (t : Table) : Type :=
  { f : Frame // frameInvariant p t f = true }

/-- FRAME_NEW's value (R60): the four range checks in operand order, then the table, then the Frame (R61). -/
def frameNew (s : State) (frameType datagramId sequenceNum : Nat) (payload : List Byte) : Except Error Frame :=
  if frameType > 255 then .error (.constructionError .frameTypeRange)
  else if datagramId > 0xFFFFFFFF then .error (.constructionError .datagramIdRange)
  else if sequenceNum ≥ 2 ^ s.params.seqBits.bits then .error (.constructionError .sequenceRange)
  else if payload.length > s.params.maxPayloadLen.val then .error (.constructionError .payloadTooLarge)
  else if s.tableValid = false then .error .tableNotBuilt
  else .ok
    { sof := s.params.sofValue
      frameType := BitVec.ofNat 8 frameType
      datagramId := BitVec.ofNat 32 datagramId
      sequenceNum := BitVec.ofNat 8 sequenceNum
      payloadLen := BitVec.ofNat 16 payload.length
      payload := payload
      crc32 := checksum s.table payload
      eof := s.params.eofValue }

/-- FRAME_NEW (R60). -/
def execFrameNew (frameType datagramId sequenceNum : Nat) (payload : List Byte) (s : State) :
    Host.Outcome State Fault Refusal :=
  .next (s.answer ((frameNew s frameType datagramId sequenceNum payload).map .frame))

/-- The wire bytes of a Frame value, in the order of R62 and at the offsets of 30_encoding.md R41. -/
def framePack (f : Frame) : List Byte :=
  [f.sof, f.frameType] ++ leBytes 4 f.datagramId.toNat ++ [f.sequenceNum] ++ leBytes 2 f.payloadLen.toNat
    ++ f.payload ++ leBytes 4 f.crc32.toNat ++ [f.eof]

/-- FRAME_PACK (R62): reads no state and has no error. Its operand is a Frame value: `fetch` refuses a record that is
none (R62 (c)), such as one whose payload no longer has its crc32 (70_reset_and_hazards.md R114). -/
def execFramePack (f : Frame) (s : State) : Host.Outcome State Fault Refusal :=
  .next (s.complete (.bytes (framePack f)))

/-- FRAME_UNPACK's value (R63): steps 1 to 9 in the rule's order (R64). -/
def frameUnpack (s : State) (b : List Byte) : Except Error Frame :=
  if b.length < Config.frameOverhead then .error (.parseError .shortBuffer)
  else if byteAt b 0 ≠ s.params.sofValue then .error (.parseError .badSOF)
  else
    let len := memRead b 7 2
    if len > s.params.maxPayloadLen.val then .error (.parseError .lengthField)
    else if b.length < Config.frameOverhead + len then .error (.parseError .shortBuffer)
    else if s.params.trailing = .reject ∧ b.length > Config.frameOverhead + len then
      .error (.parseError .trailingBytes)
    else if byteAt b (13 + len) ≠ s.params.eofValue then .error (.parseError .badEOF)
    else if (byteAt b 6).toNat ≥ 2 ^ s.params.seqBits.bits then .error (.parseError .sequenceRange)
    else if s.tableValid = false then .error .tableNotBuilt
    else
      let payload := slice b 9 (9 + len)
      let rxCrc := BitVec.ofNat 32 (memRead b (9 + len) 4)
      if checksum s.table payload ≠ rxCrc then .error .checksumFailure
      else .ok
        { sof := byteAt b 0
          frameType := byteAt b 1
          datagramId := BitVec.ofNat 32 (memRead b 2 4)
          sequenceNum := byteAt b 6
          payloadLen := BitVec.ofNat 16 len
          payload := payload
          crc32 := rxCrc
          eof := byteAt b (13 + len) }

/-- FRAME_UNPACK (R63). -/
def execFrameUnpack (b : List Byte) (s : State) : Host.Outcome State Fault Refusal :=
  .next (s.answer ((frameUnpack s b).map .frame))

end Sys2Proof.Machine
end

