-- ==== Sys2Proof/Machine/Reserved.lean ====
section
/-! DEFINITION. Operation code 7 (30_encoding.md R47 (a), 60_exceptions.md R100). -/

namespace Sys2Proof.Machine

/-- Code 7 selects no operation: IllegalOperation, no state read or written (R100). -/
def execReserved7 (s : State) : Host.Outcome State Fault Refusal :=
  .next (s.raise .illegalOperation)

end Sys2Proof.Machine
end

