-- ==== Sys2Proof/Machine/Dispatch.lean ====
section
/-! DEFINITION. One operation (00_scope.md R11): one arm per row of the operation table (30_encoding.md R40), each a
call of the row's meaning. -/

namespace Sys2Proof.Machine

def exec (i : Instr) (s : State) : Host.Outcome State Fault Refusal :=
  match i with
  | .buildTable poly => Sys2Proof.Machine.execBuildTable poly s
  | .checksum data => Sys2Proof.Machine.execChecksum data s
  | .frameNew frameType datagramId sequenceNum payload => Sys2Proof.Machine.execFrameNew frameType datagramId sequenceNum payload s
  | .framePack f => Sys2Proof.Machine.execFramePack f s
  | .frameUnpack b => Sys2Proof.Machine.execFrameUnpack b s
  | .ackParse b => Sys2Proof.Machine.execAckParse b s
  | .ackIsAck a => Sys2Proof.Machine.execAckIsAck a s
  | .reserved7 => Sys2Proof.Machine.execReserved7 s

end Sys2Proof.Machine
end

