-- ==== Sys2Proof/WellFormed.lean ====
section
/-! DEFINITION. Which operands are operands: a record given to FRAME_PACK must be a Frame value (10_state.md R21,
93_implementation_defined.md U15), one given to ACK_IS_ACK an Ack value (R22). Every other operand is legal. -/

namespace Sys2Proof

/-- R21, all of (a) to (f), under the parameters of the instance and the table of the polynomial the Frame was made
under. DESIGN CHOICE (log 5): which polynomial that is comes with the Frame. -/
def Frame.wellFormed (p : Params) (madeUnder : Word) (f : Frame) : Bool :=
  Machine.frameInvariant p (Machine.tableOf madeUnder) f

/-- R22: a message of 0 to 256 bytes whose last byte, if it has one, is not 0x00. -/
def Ack.wellFormed (a : Ack) : Bool :=
  decide (a.errorMessage.length ≤ Config.errorMessageSize) && a.errorMessage.getLast? != some 0

/-- The operands of i are values the host can present to an instance with parameters p, a Frame as one made under the
table of a polynomial. -/
def Instr.wellFormed (p : Params) (madeUnder : Word) : Instr → Bool
  | .buildTable _ => true
  | .checksum _ => true
  | .frameNew _ _ _ _ => true
  | .framePack f => f.wellFormed p madeUnder
  | .frameUnpack _ => true
  | .ackParse _ => true
  | .ackIsAck a => a.wellFormed
  | .reserved7 => true

end Sys2Proof
end

