-- ==== Sys2Proof/Decode.lean ====
section
/-! DEFINITION. The operation select codes (30_encoding.md R40), decoded and encoded. The code is a 3-bit field and
all eight values are rows of the table, code 7 the reserved one (R47 (a)); the operands have no bits, they come by
value beside the code. -/

namespace Sys2Proof

/-- The operation a command selects, with the operands the operation takes from the ports. Total: a 3-bit code is
0 to 7, so the last arm is code 7 alone (R47 (a)). -/
def decode (c : Command) : Instr :=
  match c.op.toNat with
  | 0 => .buildTable c.ports.poly
  | 1 => .checksum c.ports.bytes
  | 2 => .frameNew c.ports.frameType c.ports.datagramId c.ports.sequenceNum c.ports.bytes
  | 3 => .framePack c.ports.frame
  | 4 => .frameUnpack c.ports.bytes
  | 5 => .ackParse c.ports.bytes
  | 6 => .ackIsAck c.ports.ack
  | _ => .reserved7

/-- The select code of an operation (R40). -/
def opcode : Instr → BitVec 3
  | .buildTable _ => 0
  | .checksum _ => 1
  | .frameNew _ _ _ _ => 2
  | .framePack _ => 3
  | .frameUnpack _ => 4
  | .ackParse _ => 5
  | .ackIsAck _ => 6
  | .reserved7 => 7

/-- The operand ports as the host sets them for an operation: its own operands, zero on every other port. -/
def operandPorts : Instr → Ports
  | .buildTable poly => { Ports.zero with poly := poly }
  | .checksum data => { Ports.zero with bytes := data }
  | .frameNew t d q payload =>
      { Ports.zero with frameType := t, datagramId := d, sequenceNum := q, bytes := payload }
  | .framePack f => { Ports.zero with frame := f }
  | .frameUnpack b => { Ports.zero with bytes := b }
  | .ackParse b => { Ports.zero with bytes := b }
  | .ackIsAck a => { Ports.zero with ack := a }
  | .reserved7 => Ports.zero

/-- The command that selects an operation with its operands; a Frame operand is presented with the polynomial of the
table it was made under (log 5). -/
def encode (i : Instr) (madeUnder : Word) : Command :=
  { op := opcode i, ports := { operandPorts i with madeUnder := madeUnder } }

/-- The command whose select code stands in bits 2 to 0 of w, every operand zero. DESIGN CHOICE (log 7): the bits
of the byte above the 3-bit field are no part of the code, as the table's mask 0x7 has it. -/
def tableCommand (w : Nat) : Command :=
  { op := BitVec.ofNat 3 w, ports := Ports.zero }

/-- The operation the decoder reads from a word of the operation table; refused where fewer than the 3 bits of the
code are given. -/
def decodeTableWord (nbits w : Nat) : Option Instr :=
  if nbits < 3 then none else some (decode (tableCommand w))

end Sys2Proof
end

