-- ==== Sys2Proof/Machine/Fetch.lean ====
section
/-! DEFINITION. What the block is asked to do next. There is no program counter and no instruction stream (10_state.md
R17): the host presents one operation at a time (00_scope.md R11), and `State.pending` is what it will present. -/

namespace Sys2Proof.Machine

/-- What the next step is: nothing presented, a reset (each with the state it leaves), an operation to run with the state
it runs in (the command taken off the port), or an operand that is no value of its type. -/
inductive Fetched where
  | idle (s : State)
  | reset (s : State)
  | run (i : Instr) (s : State)
  | reject (r : Refusal)
  deriving DecidableEq, Repr

/-- The name under which an ill-formed operand is refused (93_implementation_defined.md U15; 10_state.md R22). Only
FRAME_PACK and ACK_IS_ACK have operands that can be ill-formed. -/
def operandRefusal : Instr → Refusal
  | .framePack _ => .notAFrame
  | _ => .notAnAck

/-- The first event pending. -/
def fetch (s : State) : Fetched :=
  match s.pending with
  | [] => .idle (s.takeEvent [])
  | .reset :: rest => .reset (s.takeEvent rest).resetEvent
  | .present c :: rest =>
      if (decode c).wellFormed s.params c.ports.madeUnder then .run (decode c) (s.takeEvent rest)
      else .reject (operandRefusal (decode c))

/-- The state with a command put before everything the host presents. -/
def State.presentFirst (c : Command) (s : State) : State :=
  { s with pending := .present c :: s.pending }

end Sys2Proof.Machine
end

