-- ==== Sys2Proof/Machine/Step.lean ====
section
/-! DEFINITION. One step of the block (00_scope.md R11): it runs the operation the host presents next, whole. With
nothing presented nothing happens in the block (60_exceptions.md R104) and no result is returned: the block does not halt
(70_reset_and_hazards.md R118; log 9). -/

namespace Sys2Proof.Machine

def step (s : State) : Host.Outcome State Fault Refusal :=
  match fetch s with
  | .idle t => .next t
  | .reset t => .next t
  | .run i t => exec i t
  | .reject r => .refused r

/-- The state in which the very next step runs the operation of a table word (log 8): its command is presented first.
A word shorter than the 3-bit code presents nothing. -/
def State.withFetchWord (s : State) (nbits w : Nat) : State :=
  if nbits < 3 then s else s.presentFirst (tableCommand w)

end Sys2Proof.Machine
end

