-- ==== Sys2Proof/Machine/Pseudo.lean ====
section
/-! DEFINITION. The pseudo-operations FRAME_BUILD and FRAME_CHECK (30_encoding.md R49): abbreviations over the block's
operations, with no select code of their own. ACK_CLASS is `ackClass` in Machine/Flags.lean. -/

namespace Sys2Proof.Machine

/-- FRAME_BUILD t i s p: FRAME_NEW then FRAME_PACK of its result (R49). -/
def frameBuild (s : State) (frameType datagramId sequenceNum : Nat) (payload : List Byte) :
    Except Error (List Byte) :=
  (frameNew s frameType datagramId sequenceNum payload).map framePack

/-- FRAME_CHECK b: FRAME_UNPACK with the Frame value discarded and only the status kept, as its code (R49, R95). -/
def frameCheck (s : State) (b : List Byte) : Nat :=
  match frameUnpack s b with
  | .ok _ => 0
  | .error e => errorCode e

end Sys2Proof.Machine
end

