-- ==== Sys2Proof/Machine/Datagram.lean ====
section
/-! DEFINITION. The host's datagram builder (43_host_contract.md R77 to R82, R92), an ENVIRONMENT of the block and no
part of it (00_scope.md R5 (a)): it holds no machine state and uses the block only through its operations' values.
The header's layout, its type byte and the two readings of packet_crc32 are the spec's decisions (log 17). -/

namespace Sys2Proof.Machine

/-- HDR_CRC_RANGE (R79, 90_conflicts.md C4). -/
inductive HdrCrcRange where
  | preceding16
  | zeroed20
  deriving DecidableEq, Repr

/-- ACK_MODE (R87). -/
inductive AckMode where
  | perFrame
  | perWindow
  deriving DecidableEq, Repr

/-- The host's parameters (R92), none of which the block reads. ACK_TIMEOUT is time and has no field: a timeout is a
reply that did not come (log 17). -/
structure HostParams where
  frameTypePayload : Byte
  chunkSize        : Nat
  maxRetries       : Nat
  ackMode          : AckMode
  windowSize       : Nat
  hdrCrcRange      : HdrCrcRange
  deriving DecidableEq, Repr

/-- The host's parameters in their ranges under the block's: FRAME_TYPE_PAYLOAD is 1 to 255 (R92), CHUNK_SIZE is 1 to
MAX_PAYLOAD_LEN (R80). DESIGN CHOICE (log 18): WINDOW_SIZE is at least 1, a range the spec does not give it. -/
def hostParamsLegal (p : Params) (hp : HostParams) : Bool :=
  hp.frameTypePayload != 0 && decide (1 ≤ hp.chunkSize) && decide (hp.chunkSize ≤ p.maxPayloadLen.val)
    && decide (1 ≤ hp.windowSize)

/-- DatagramHeader: seven fields (R77). -/
structure DatagramHeader where
  targetNode    : Byte
  type          : Byte
  numPackets    : BitVec 16
  datagramId    : BitVec 32
  totalLength   : BitVec 32
  datagramCrc32 : Word
  packetCrc32   : Word
  deriving DecidableEq, Repr

/-- The 16 header bytes before packet_crc32 (R78). -/
def headerPreceding (h : DatagramHeader) : List Byte :=
  [h.targetNode, h.type] ++ leBytes 2 h.numPackets.toNat ++ leBytes 4 h.datagramId.toNat
    ++ leBytes 4 h.totalLength.toNat ++ leBytes 4 h.datagramCrc32.toNat

/-- The 20 header bytes (R78). -/
def headerBytes (h : DatagramHeader) : List Byte :=
  headerPreceding h ++ leBytes 4 h.packetCrc32.toNat

/-- The byte range packet_crc32 is taken over, in either reading of R79. -/
def headerCrcRange (r : HdrCrcRange) (h : DatagramHeader) : List Byte :=
  match r with
  | .preceding16 => headerPreceding h
  | .zeroed20 => headerPreceding h ++ [0, 0, 0, 0]

/-- The header with its packet_crc32 computed and inserted (R79). -/
def sealHeader (t : Table) (r : HdrCrcRange) (h : DatagramHeader) : DatagramHeader :=
  { h with packetCrc32 := checksum t (headerCrcRange r h) }

/-- The check a receiver makes of a header: packet_crc32 recomputed equals the stored value (R79). -/
def headerIntact (t : Table) (r : HdrCrcRange) (h : DatagramHeader) : Bool :=
  h.packetCrc32 == checksum t (headerCrcRange r h)

/-- ceil(n / CHUNK_SIZE), the number of payload frames (R80). -/
def chunkCount (chunkSize : Nat) (source : List Byte) : Nat :=
  (source.length + chunkSize - 1) / chunkSize

/-- chunk_i, i counted from 1 (R80): B[(i-1)*CHUNK_SIZE .. min(i*CHUNK_SIZE, n)). -/
def chunkAt (chunkSize : Nat) (source : List Byte) (i : Nat) : List Byte :=
  slice source ((i - 1) * chunkSize) (min (i * chunkSize) source.length)

/-- A datagram, fully materialised before it is sent (R83). -/
structure Datagram where
  header      : DatagramHeader
  headerFrame : Frame
  frames      : List Frame
  deriving DecidableEq, Repr

/-- The host's errors that cross to its caller (R91): an error of the block that is not retried, and retry exhaustion.
R91 has only ConstructionError and exhaustion cross; that TableNotBuilt and IllegalOperation do is a DESIGN CHOICE
(log 18). "User-visible failure always identifies which frame (by sequence number) and which datagram (by id)
failed": both carry the two. The first keeps the numbers as FRAME_NEW was given them, in range or not. -/
inductive TransferError where
  | blockError (e : Error) (datagramId sequenceNum : Nat)
  | retryExhausted (datagramId : BitVec 32) (sequenceNum : Byte)
  deriving DecidableEq, Repr

/-- FRAME_NEW as the host issues it: an error is reported with the frame it was for, and not retried (R91; log 18 for
TableNotBuilt). -/
def hostFrameNew (s : State) (frameType datagramId sequenceNum : Nat) (payload : List Byte) :
    Except TransferError Frame :=
  match frameNew s frameType datagramId sequenceNum payload with
  | .error e => .error (.blockError e datagramId sequenceNum)
  | .ok f => .ok f

/-- The payload frames with the given sequence numbers, by FRAME_NEW in order; the first error ends it (R80). -/
def payloadFrames (s : State) (hp : HostParams) (datagramId : Nat) (source : List Byte) :
    List Nat → Except TransferError (List Frame)
  | [] => .ok []
  | i :: is =>
      match hostFrameNew s hp.frameTypePayload.toNat datagramId i (chunkAt hp.chunkSize source i) with
      | .error e => .error e
      | .ok f =>
          match payloadFrames s hp datagramId source is with
          | .error e => .error e
          | .ok fs => .ok (f :: fs)

/-- The header of the datagram of a source, whose checksum is crc, in count payload frames: datagram_crc32, num_packets
and total_length as R80 has them, type 0, packet_crc32 computed (R79). -/
def datagramHeader (s : State) (hp : HostParams) (targetNode : Byte) (datagramId : Nat) (source : List Byte)
    (count : Nat) (crc : Word) : DatagramHeader :=
  sealHeader s.table hp.hdrCrcRange
    { targetNode := targetNode, type := 0, numPackets := BitVec.ofNat 16 count,
      datagramId := BitVec.ofNat 32 datagramId, totalLength := BitVec.ofNat 32 source.length,
      datagramCrc32 := crc, packetCrc32 := 0 }

/-- Datagram::from_bytes (R80, R81): chunk, FRAME_NEW each, CHECKSUM of the whole source, the header with its own
checksum, and the header's carrier frame with frame_type 0 and sequence_num 0 (R78). DESIGN CHOICE (log 18): an error
of the whole-source CHECKSUM is reported for the header frame, which carries that checksum. -/
def datagramFromBytes (s : State) (hp : HostParams) (targetNode : Byte) (datagramId : Nat) (source : List Byte) :
    Except TransferError Datagram :=
  match payloadFrames s hp datagramId source (List.range' 1 (chunkCount hp.chunkSize source)) with
  | .error e => .error e
  | .ok frames =>
      match checksumNow s source with
      | .error e => .error (.blockError e datagramId 0)
      | .ok crc =>
          let header := datagramHeader s hp targetNode datagramId source frames.length crc
          match hostFrameNew s 0 datagramId 0 (headerBytes header) with
          | .error e => .error e
          | .ok f => .ok { header := header, headerFrame := f, frames := frames }

end Sys2Proof.Machine
end

