-- ==== Sys2Proof/Machine/Transmitter.lean ====
section
/-! DEFINITION. The host's transmitter (43_host_contract.md R84 to R91), an ENVIRONMENT of the block and no part of it
(00_scope.md R5 (a)). The transport's answers are a list of replies, a timeout among them (R85, R89); there is no time
(log 17). The block keeps its state while a datagram is sent (70_reset_and_hazards.md R113). -/

namespace Sys2Proof.Machine

/-- What one wait on the transport gives (R89 `bytes | none`): nothing within the timeout, bytes taken for an
acknowledgment, or bytes taken for a frame. Which of the two the listener takes them for is its own affair: DESIGN
CHOICE (log 18). -/
inductive Reply where
  | timeout
  | ack (b : List Byte)
  | frame (b : List Byte)
  deriving DecidableEq, Repr

/-- What the host does after a wait: go on, with the acknowledgment send_frame returns; send again; or give the error to
its caller. -/
inductive HostMove where
  | advance (a : Ack)
  | retry
  | report (e : Error)
  deriving DecidableEq, Repr

/-- The host's answer to each error of the block (R91): ACK_PARSE's ParseError is "no valid acknowledgment received"; a
ChecksumFailure is a transport corruption event and "triggers retry exactly like a NACK"; a ConstructionError is never
retried and crosses to the caller; TableNotBuilt and IllegalOperation are never retried. DESIGN CHOICE (log 18): a
ParseError of FRAME_UNPACK, whose unit is discarded and for which the source says no more (90_conflicts.md C10), retries
too; and TableNotBuilt and IllegalOperation are given to the caller at once, which R91 and 60_exceptions.md R106 do not
say. -/
def onError : Error → HostMove
  | .parseError _ => .retry
  | .checksumFailure => .retry
  | .constructionError c => .report (.constructionError c)
  | .tableNotBuilt => .report .tableNotBuilt
  | .illegalOperation => .report .illegalOperation

/-- What one wait leads to (R85, R91), with the block in state s: ACK_PARSE OK and ACK_IS_ACK 1 is the only outcome that
advances; NACK, UNKNOWN, ACK_PARSE's ParseError and a timeout retry; a frame is unpacked and its ChecksumFailure retries.
DESIGN CHOICE (log 18): a frame that unpacks to OK is no acknowledgment, so it retries as an absent one does, and one that
ends in ParseError (90_conflicts.md C10) likewise; one that ends in TableNotBuilt aborts the datagram and is given to the
caller. -/
def onReply (s : State) : Reply → HostMove
  | .timeout => .retry
  | .ack b =>
      match ackParse b with
      | .ok a => if ackIsAck a then .advance a else .retry
      | .error e => onError e
  | .frame b =>
      match frameUnpack s b with
      | .ok _ => .retry
      | .error e => onError e

/-- send_frame(frame) -> Result<Ack, TransferError> (R85, R86), with maxRetries re-sends left: the Ack that let it
advance, or the error after the last re-send, or at once an error the host does not retry (log 18). A reply that never
comes is a timeout. -/
def sendFrame (s : State) (f : Frame) : Nat → List Reply → Except TransferError Ack
  | n, replies =>
      match onReply s (replies.headD .timeout) with
      | .advance a => .ok a
      | .report e => .error (.blockError e f.datagramId.toNat f.sequenceNum.toNat)
      | .retry =>
          match n with
          | 0 => .error (.retryExhausted f.datagramId f.sequenceNum)
          | n + 1 => sendFrame s f n replies.tail

/-- The transmitter's states (R84); advancing holds the Ack it advances on, aborted the error it aborts with. -/
inductive TxPhase where
  | idle
  | sending
  | awaitingAck
  | advancing (a : Ack)
  | retrying
  | aborted (e : TransferError)
  deriving DecidableEq, Repr

/-- How a datagram ends (R84): Completed, or Failed with the error transmit returns (R88). -/
inductive TxOutcome where
  | completed
  | failed (e : TransferError)
  deriving DecidableEq, Repr

/-- A transmitter at work: the units still to be acknowledged, the current one first (a frame, or a window of frames:
R87), the re-sends of the current unit, the transport's replies still to come, what was written, the Ack of each unit
that was acknowledged, and the outcome. -/
structure Transmitter where
  phase   : TxPhase
  todo    : List (List Frame)
  retries : Nat
  replies : List Reply
  written : List (List Byte)
  acks    : List Ack
  outcome : Option TxOutcome
  deriving DecidableEq, Repr

/-- Frames in windows of n, in order (R87). DESIGN CHOICE (log 18): when the number of frames is no multiple of n the last
window holds the frames that are left, fewer than n, which R87's "fixed-size windows" does not say. -/
def windowsOf (n : Nat) (frames : List Frame) : List (List Frame) :=
  (List.range ((frames.length + n - 1) / n)).map fun k => (frames.drop (k * n)).take n

/-- What is acknowledged together: the header frame first (R88), then each payload frame, or each window of them
(R87). DESIGN CHOICE (log 18): in per_window mode the header frame is a unit of its own, acknowledged alone and no part
of a window, which R87 and R88 do not say. -/
def unitsOf (hp : HostParams) (d : Datagram) : List (List Frame) :=
  [d.headerFrame] ::
    match hp.ackMode with
    | .perFrame => d.frames.map fun f => [f]
    | .perWindow => windowsOf hp.windowSize d.frames

/-- The transmitter before it sends anything. -/
def txStart (units : List (List Frame)) (replies : List Reply) : Transmitter :=
  { phase := .idle, todo := units, retries := 0, replies := replies, written := [], acks := [], outcome := none }

/-- The frame a failure names: the first of the current unit (log 18 for a window). With no unit, which no transmitter
waits for, datagram 0 and frame 0. -/
def failedFrame : List (List Frame) → BitVec 32 × Byte
  | (f :: _) :: _ => (f.datagramId, f.sequenceNum)
  | _ => (0, 0)

/-- One move of the transmitter (R84, R85, R86): idle takes the next unit, or the same one again after Retrying, or
completes; sending writes the unit's packed frames, the same bytes on every re-send; awaitingAck takes one reply; a unit
not acknowledged is sent again while fewer than maxRetries re-sends were made; Advancing, Retrying and Aborted all go
back to Idle. -/
def txStep (s : State) (maxRetries : Nat) (x : Transmitter) : Transmitter :=
  match x.outcome with
  | some _ => x
  | none =>
      match x.phase with
      | .idle =>
          match x.todo with
          | [] => { x with outcome := some .completed }
          | _ :: _ => { x with phase := .sending }
      | .sending => { x with phase := .awaitingAck, written := x.written ++ (x.todo.headD []).map framePack }
      | .awaitingAck =>
          let rest := { x with replies := x.replies.tail }
          match onReply s (x.replies.headD .timeout) with
          | .advance a => { rest with phase := .advancing a }
          | .report e =>
              { rest with
                phase := .aborted (.blockError e (failedFrame x.todo).1.toNat (failedFrame x.todo).2.toNat) }
          | .retry =>
              if x.retries < maxRetries then { rest with phase := .retrying }
              else { rest with phase := .aborted (.retryExhausted (failedFrame x.todo).1 (failedFrame x.todo).2) }
      | .advancing a => { x with phase := .idle, todo := x.todo.tail, retries := 0, acks := x.acks ++ [a] }
      | .retrying => { x with phase := .idle, retries := x.retries + 1 }
      | .aborted e => { x with phase := .idle, outcome := some (.failed e) }

/-- n moves of the transmitter. -/
def txRun (s : State) (maxRetries n : Nat) (x : Transmitter) : Transmitter :=
  (txStep s maxRetries)^[n] x

end Sys2Proof.Machine
end

