-- ==== Sys2Proof/Safety.lean ====
section
/-! DEFINITION. What claims about the block are stated in: a host that kept its duties (43_host_contract.md R94,
70_reset_and_hazards.md R112), and the invariant every step keeps. -/

namespace Sys2Proof.Machine

/-- A result no correct host ever sees: the two errors that are host programming errors (43_host_contract.md R91,
60_exceptions.md R99, R100). -/
def hostMistake : Result → Bool
  | .error .tableNotBuilt => true
  | .error .illegalOperation => true
  | _ => false

/-- The results of the operations the first n steps run, in order, up to the first refusal: what a claim about a
sequence of operations is about (70_reset_and_hazards.md R118). -/
def resultsOf : Nat → State → List Result
  | 0, _ => []
  | n + 1, s =>
      match step s with
      | .next t => t.result.toList ++ resultsOf n t
      | _ => []

/-- A good run: no step is refused and no result is a host mistake (R99: a claim takes it as given). -/
def goodRun : Nat → State → Bool
  | 0, _ => true
  | n + 1, s =>
      match step s with
      | .next t => !(t.result.any hostMistake) && goodRun n t
      | _ => false

/-- What a result on the port says of the state it stands in: a checksum or a Frame came from a built table (R99), a
Frame meets its invariant under the table in force (10_state.md R21), an Ack is an Ack value (R22). -/
def resultInvariant (s : State) : Bool :=
  match s.result with
  | some (.ok (.word _)) => s.tableValid
  | some (.ok (.frame f)) => s.tableValid && frameInvariant s.params s.table f
  | some (.ok (.ack a)) => a.wellFormed
  | _ => true

/-- The invariant of the block: with TABLE_VALID 1, TABLE is the table of POLY (10_state.md R15), and the result port
holds what an operation could have answered. -/
structure Invariant (s : State) : Prop where
  tableOfPoly : s.tableValid = true → s.table = tableOf s.poly
  result      : resultInvariant s = true

end Sys2Proof.Machine
end

