-- ==== Sys2Proof/Certificates/Slice0/Obligations.lean ====
section
/-! DEFINITION. The statements for the provers. Each is about all states, hence about all parameters of an instance
(00_scope.md R7), unless it says otherwise. "The state but its result" is the whole frame of an operation: every field
of State other than `result` as before. -/

open Sys2Proof Sys2Proof.Machine

namespace Sys2Proof.Spec

/-- The bytes of the input in the order 40_checksum.md R52 and R54 feed them, by recursion on the input: a full group
backwards, a last group of 1, 2 or 3 bytes with its padding zeros fed first. -/
def feed : List Byte → List Byte
  | b0 :: b1 :: b2 :: b3 :: rest => b3 :: b2 :: b1 :: b0 :: feed rest
  | [b0, b1, b2] => [0, b2, b1, b0]
  | [b0, b1] => [0, 0, b1, b0]
  | [b0] => [0, 0, 0, b0]
  | [] => []

/-- One fold in numbers (R53): the accumulator times 256 kept to 32 bits, exclusive-or the entry at its top byte
exclusive-or the input byte. -/
def foldStep (t : Table) (acc : Word) (b : Byte) : Word :=
  BitVec.ofNat 32 (acc.toNat * 256) ^^^ readEntry t (BitVec.ofNat 8 (acc.toNat / 2 ^ 24) ^^^ b)

/-- The checksum of R52 over the feed order. -/
def checksumOf (t : Table) (data : List Byte) : Word :=
  (feed data).foldl (foldStep t) 0xFFFFFFFF ^^^ 0xFFFFFFFF

/-- Steps 1 to 4 of 41_frame.md R63 pass: the buffer starts with SOF_VALUE and holds the whole frame its length field
announces. -/
def headerFits (p : Params) (b : List Byte) : Prop :=
  byteAt b 0 = p.sofValue ∧ memRead b 7 2 ≤ p.maxPayloadLen.val ∧ 14 + memRead b 7 2 ≤ b.length

/-- Steps 1 to 7 of R63 pass. -/
def wellFramed (p : Params) (b : List Byte) : Prop :=
  headerFits p b ∧ (p.trailing = .reject → b.length = 14 + memRead b 7 2)
    ∧ byteAt b (13 + memRead b 7 2) = p.eofValue ∧ (byteAt b 6).toNat < 2 ^ p.seqBits.bits

/-- The operands of FRAME_NEW that pass its four range checks (41_frame.md R60). -/
def inRange (p : Params) (frameType datagramId sequenceNum : Nat) (payload : List Byte) : Prop :=
  frameType ≤ 255 ∧ datagramId ≤ 0xFFFFFFFF ∧ sequenceNum < 2 ^ p.seqBits.bits
    ∧ payload.length ≤ p.maxPayloadLen.val

end Sys2Proof.Spec

open Sys2Proof.Spec

/-! ### Reset, the step, decoding -/

/-- 10_state.md R23 and 70_reset_and_hazards.md R110: after reset TABLE_VALID is 0, at State.reset and after a reset the
host presents in any state. That the parameters and what is pending stay, and that no result is held, is the model's
reading (log 10). Nothing is said of TABLE and POLY, which are unspecified. -/
def Obligations.ResetClearsTableValid : Prop :=
  State.reset.tableValid = false
    ∧ ∀ s rest, s.pending = .reset :: rest →
        ∃ t, step s = .next t ∧ t.tableValid = false ∧ t.result = none ∧ t.params = s.params ∧ t.pending = rest

/-- 00_scope.md R11: a step with a well-formed operation presented is that operation, run in the state with the
presented command taken and no earlier result left (10_state.md R18, R19; log 1). The check of the operand is the model's
choice (log 5, log 6). -/
def Obligations.StepRunsThePresentedOperation : Prop :=
  ∀ (s : State) (c : Command) (rest : List HostEvent), s.pending = .present c :: rest →
    (decode c).wellFormed s.params c.ports.madeUnder = true →
      step s = exec (decode c) { s with pending := rest, result := none }

/-- What a step does when it runs no operation. With nothing presented no register, parameter or event changes and no
result is held: that this is a step at all, and what it answers, is the model's reading of 60_exceptions.md R104 and
10_state.md R19 (log 9, DEDUCED). A record that is no Frame is refused as FRAME_PACK's operand, one that is no Ack as
ACK_IS_ACK's: 93_implementation_defined.md U15 has the first, and how the two checks are made is the model's choice
(log 5, log 6). -/
def Obligations.StepIdlesOrRefusesAnOperand : Prop :=
  (∀ s : State, s.pending = [] → step s = .next { s with result := none })
    ∧ (∀ (s : State) (c : Command) (rest : List HostEvent) (f : Frame), s.pending = .present c :: rest →
        decode c = .framePack f → f.wellFormed s.params c.ports.madeUnder = false → step s = .refused .notAFrame)
    ∧ (∀ (s : State) (c : Command) (rest : List HostEvent) (a : Ack), s.pending = .present c :: rest →
        decode c = .ackIsAck a → a.wellFormed = false → step s = .refused .notAnAck)

/-- 10_state.md R19: every operation returns its outcome as its result, OK with a value or one error; no outcome is
latched: no step's answer depends on an earlier result, and a step that runs no operation leaves none. -/
def Obligations.NoOutcomeIsLatched : Prop :=
  (∀ (i : Instr) (s : State), ∃ t r, exec i s = .next t ∧ t.result = some r)
    ∧ (∀ (s : State) (earlier : Option Result), step { s with result := earlier } = step s)
    ∧ (∀ (i : Instr) (s : State) (earlier : Option Result), exec i { s with result := earlier } = exec i s)
    ∧ (∀ s t : State, s.pending = [] → step s = .next t → t.result = none)

/-- 30_encoding.md R40: the command of an operation selects that operation with its operands, and presenting it runs
it. The polynomial presented beside a Frame is the model's (log 5). -/
def Obligations.EncodedOperationRuns : Prop :=
  ∀ (i : Instr) (madeUnder : Word) (s : State) (rest : List HostEvent), decode (encode i madeUnder) = i
    ∧ (i.wellFormed s.params madeUnder = true →
        step { s with pending := .present (encode i madeUnder) :: rest }
          = exec i { s with pending := rest, result := none })

/-- 30_encoding.md R40: the eight select codes, each as an 8-bit table word with zero operands. The Frame operand's zero
is the model's (log 7). -/
def Obligations.SelectCodesDecode : Prop :=
  decodeTableWord 8 0b000 = some (.buildTable 0) ∧ decodeTableWord 8 0b001 = some (.checksum [])
    ∧ decodeTableWord 8 0b010 = some (.frameNew 0 0 0 []) ∧ decodeTableWord 8 0b011 = some (.framePack (Frame.empty Params.ex1))
    ∧ decodeTableWord 8 0b100 = some (.frameUnpack []) ∧ decodeTableWord 8 0b101 = some (.ackParse [])
    ∧ decodeTableWord 8 0b110 = some (.ackIsAck Ack.empty) ∧ decodeTableWord 8 0b111 = some .reserved7

/-! ### The checksum engine -/

/-- 40_checksum.md R50, the completion and the frame of BUILD_TABLE: in every state and for every poly it writes all 256
entries, POLY and TABLE_VALID and nothing else (its result is OK with no value); poly 0 gives 256 zeros; with the
polynomial already in force nothing but the result changes. -/
def Obligations.BuildTableLoadsTheTable : Prop :=
  (∀ (poly : Word) (s : State), ∃ t : Table, (∀ i : Byte, readEntry t i = crcEntry poly i)
      ∧ exec (.buildTable poly) s
          = .next { s with poly := poly, table := t, tableValid := true, result := some (.ok .none) })
    ∧ (∀ (s t : State), exec (.buildTable 0) s = .next t → ∀ i : Byte, readEntry t.table i = 0)
    ∧ (∀ s : State, Invariant s → s.tableValid = true →
        exec (.buildTable s.poly) s = .next { s with result := some (.ok .none) })

/-- 40_checksum.md R51, a construction the spec marks as from general knowledge, not in the source: an entry is eight
steps from i in bits 31 to 24, each a left shift with the generator exclusive-ored in when bit 31 was set; entry 0 is 0,
entry 1 is poly, and the entries are linear over exclusive or. -/
def Obligations.TableEntriesAreEightShifts : Prop :=
  (∀ (poly : Word) (i : Byte), ∃ c : Nat → Word, (c 0).toNat = i.toNat * 2 ^ 24
      ∧ (∀ k < 8, (c (k + 1)).toNat
          = if (c k).toNat ≥ 2 ^ 31 then ((c k).toNat * 2 % 2 ^ 32) ^^^ poly.toNat else (c k).toNat * 2 % 2 ^ 32)
      ∧ crcEntry poly i = c 8)
    ∧ (∀ poly : Word, crcEntry poly 0 = 0 ∧ crcEntry poly 1 = poly)
    ∧ (∀ (poly : Word) (a b : Byte), crcEntry poly (a ^^^ b) = crcEntry poly a ^^^ crcEntry poly b)

/-- 30_encoding.md R46 (with the shift of 40_checksum.md R53): the table index is the top byte of the accumulator
exclusive-or the input byte, and a fold reads the entry there. -/
def Obligations.FoldReadsTheEntryAtTheTopByte : Prop :=
  ∀ (t : Table) (acc : Word) (b : Byte), (tableIndex acc b).toNat = (acc.toNat / 2 ^ 24) ^^^ b.toNat
    ∧ (fold t acc b).toNat = (acc.toNat * 256 % 2 ^ 32) ^^^ (readEntry t (tableIndex acc b)).toNat

/-- 40_checksum.md R51: with BUILD_TABLE's table the fold is a polynomial division by the generator, most-significant
bit first: the byte goes into the top of the accumulator, then eight shift steps. Rests on the construction the spec
marks as general knowledge. -/
def Obligations.FoldIsPolynomialDivision : Prop :=
  ∀ (poly acc : Word) (b : Byte),
    fold (tableOf poly) acc b = (entryStep poly)^[8] (acc ^^^ (b.setWidth 32 <<< 24))

/-- 40_checksum.md R52 and R54, the completion and the frame of CHECKSUM: with a table built it answers the checksum of
the data in the feed order, for every data and every table; without one, TableNotBuilt. Nothing but the result
changes. -/
def Obligations.ChecksumFeedsGroupsBackwards : Prop :=
  (∀ (s : State) (data : List Byte), s.tableValid = true →
      exec (.checksum data) s = .next { s with result := some (.ok (.word (checksumOf s.table data))) })
    ∧ (∀ (s : State) (data : List Byte), s.tableValid = false →
        exec (.checksum data) s = .next { s with result := some (.error .tableNotBuilt) })

/-- 40_checksum.md R55: the checksum of the empty input is 0 under every table. -/
def Obligations.EmptyInputChecksumIsZero : Prop :=
  ∀ s : State, s.tableValid = true → exec (.checksum []) s = .next { s with result := some (.ok (.word 0)) }

/-- 40_checksum.md R57 (b): bringing the input to the next multiple of 4 with zero bytes does not change its checksum,
under any table. -/
def Obligations.ZeroPaddingIsInvisible : Prop :=
  ∀ (t : Table) (data : List Byte) (k : Nat), (data.length + k) % 4 = 0 → k < 4 →
    checksum t (data ++ List.replicate k 0) = checksum t data

/-- 40_checksum.md R57 (c): four 0xFF bytes have checksum 0xFFFFFFFF for every polynomial. -/
def Obligations.FourOnesBytesGiveAllOnes : Prop :=
  ∀ (poly : Word) (s t : State), exec (.buildTable poly) s = .next t →
    exec (.checksum [0xFF, 0xFF, 0xFF, 0xFF]) t = .next { t with result := some (.ok (.word 0xFFFFFFFF)) }

/-- 40_checksum.md R57 (d): with poly 0 every non-empty input has checksum 0xFFFFFFFF. -/
def Obligations.ZeroPolynomialGivesAllOnes : Prop :=
  ∀ (s t : State) (data : List Byte), exec (.buildTable 0) s = .next t → data ≠ [] →
    exec (.checksum data) t = .next { t with result := some (.ok (.word 0xFFFFFFFF)) }

/-- 40_checksum.md R57 (e), 90_conflicts.md C9: with BUILD_TABLE's table and bit 0 of poly 1, changing one byte at an
unchanged length changes the checksum. The spec marks the condition as from general knowledge. -/
def Obligations.OneByteChangeIsSeen : Prop :=
  ∀ (poly : Word) (data : List Byte) (i : Nat) (b : Byte), poly.getLsbD 0 = true → i < data.length →
    byteAt data i ≠ b → checksum (tableOf poly) (data.set i b) ≠ checksum (tableOf poly) data

/-! ### The frame formatter and parser -/

/-- 41_frame.md R60, the completion, the errors and the frame of FRAME_NEW: the four range checks in operand order, each
reported only when the earlier ones pass, then TableNotBuilt, then the Frame with its eight fields. Nothing but the
result changes. -/
def Obligations.FrameNewChecksThenMakesTheFrame : Prop :=
  ∀ (s : State) (ty id sq : Nat) (payload : List Byte),
    (255 < ty → exec (.frameNew ty id sq payload) s
        = .next { s with result := some (.error (.constructionError .frameTypeRange)) })
    ∧ (ty ≤ 255 → 0xFFFFFFFF < id → exec (.frameNew ty id sq payload) s
        = .next { s with result := some (.error (.constructionError .datagramIdRange)) })
    ∧ (ty ≤ 255 → id ≤ 0xFFFFFFFF → 2 ^ s.params.seqBits.bits ≤ sq → exec (.frameNew ty id sq payload) s
        = .next { s with result := some (.error (.constructionError .sequenceRange)) })
    ∧ (ty ≤ 255 → id ≤ 0xFFFFFFFF → sq < 2 ^ s.params.seqBits.bits →
        s.params.maxPayloadLen.val < payload.length → exec (.frameNew ty id sq payload) s
          = .next { s with result := some (.error (.constructionError .payloadTooLarge)) })
    ∧ (inRange s.params ty id sq payload → s.tableValid = false → exec (.frameNew ty id sq payload) s
        = .next { s with result := some (.error .tableNotBuilt) })
    ∧ (inRange s.params ty id sq payload → s.tableValid = true →
        ∃ f : Frame, exec (.frameNew ty id sq payload) s = .next { s with result := some (.ok (.frame f)) }
          ∧ f.sof = s.params.sofValue ∧ f.frameType.toNat = ty ∧ f.datagramId.toNat = id
          ∧ f.sequenceNum.toNat = sq ∧ f.payloadLen.toNat = payload.length ∧ f.payload = payload
          ∧ f.crc32 = checksum s.table payload ∧ f.eof = s.params.eofValue)

/-- 41_frame.md R62, the completion and the frame of FRAME_PACK: in every state, table built or not, a Frame value (and
every record that meets R21 (a) to (e)) packs to 14 + payload_len bytes with each field at its offset, multi-byte fields
little-endian. Nothing but the result changes. -/
def Obligations.FramePackLaysOutTheFrame : Prop :=
  ∀ (s : State) (f : Frame), frameShape s.params f = true →
    ∃ out : List Byte, exec (.framePack f) s = .next { s with result := some (.ok (.bytes out)) }
      ∧ out.length = 14 + f.payloadLen.toNat
      ∧ byteAt out 0 = f.sof ∧ byteAt out 1 = f.frameType
      ∧ memRead out 2 4 = f.datagramId.toNat ∧ byteAt out 6 = f.sequenceNum
      ∧ memRead out 7 2 = f.payloadLen.toNat
      ∧ slice out 9 (9 + f.payloadLen.toNat) = f.payload
      ∧ memRead out (9 + f.payloadLen.toNat) 4 = f.crc32.toNat
      ∧ byteAt out (13 + f.payloadLen.toNat) = f.eof

/-- 41_frame.md R63, the completion, the errors and the frame of FRAME_UNPACK: steps 1 to 9 in order, each reported only
when the earlier ones pass, then the Frame with its fields assembled from the buffer. Nothing but the result changes. -/
def Obligations.FrameUnpackChecksInOrder : Prop :=
  ∀ (s : State) (b : List Byte),
    (b.length < 14 → exec (.frameUnpack b) s
        = .next { s with result := some (.error (.parseError .shortBuffer)) })
    ∧ (14 ≤ b.length → byteAt b 0 ≠ s.params.sofValue → exec (.frameUnpack b) s
        = .next { s with result := some (.error (.parseError .badSOF)) })
    ∧ (14 ≤ b.length → byteAt b 0 = s.params.sofValue → s.params.maxPayloadLen.val < memRead b 7 2 →
        exec (.frameUnpack b) s = .next { s with result := some (.error (.parseError .lengthField)) })
    ∧ (14 ≤ b.length → byteAt b 0 = s.params.sofValue → memRead b 7 2 ≤ s.params.maxPayloadLen.val →
        b.length < 14 + memRead b 7 2 →
        exec (.frameUnpack b) s = .next { s with result := some (.error (.parseError .shortBuffer)) })
    ∧ (headerFits s.params b → s.params.trailing = .reject → 14 + memRead b 7 2 < b.length →
        exec (.frameUnpack b) s = .next { s with result := some (.error (.parseError .trailingBytes)) })
    ∧ (headerFits s.params b → (s.params.trailing = .reject → b.length = 14 + memRead b 7 2) →
        byteAt b (13 + memRead b 7 2) ≠ s.params.eofValue →
        exec (.frameUnpack b) s = .next { s with result := some (.error (.parseError .badEOF)) })
    ∧ (headerFits s.params b → (s.params.trailing = .reject → b.length = 14 + memRead b 7 2) →
        byteAt b (13 + memRead b 7 2) = s.params.eofValue → 2 ^ s.params.seqBits.bits ≤ (byteAt b 6).toNat →
        exec (.frameUnpack b) s = .next { s with result := some (.error (.parseError .sequenceRange)) })
    ∧ (wellFramed s.params b → s.tableValid = false →
        exec (.frameUnpack b) s = .next { s with result := some (.error .tableNotBuilt) })
    ∧ (wellFramed s.params b → s.tableValid = true →
        (checksum s.table (slice b 9 (9 + memRead b 7 2))).toNat ≠ memRead b (9 + memRead b 7 2) 4 →
        exec (.frameUnpack b) s = .next { s with result := some (.error .checksumFailure) })
    ∧ (wellFramed s.params b → s.tableValid = true →
        (checksum s.table (slice b 9 (9 + memRead b 7 2))).toNat = memRead b (9 + memRead b 7 2) 4 →
        ∃ f : Frame, exec (.frameUnpack b) s = .next { s with result := some (.ok (.frame f)) }
          ∧ f.sof = byteAt b 0 ∧ f.frameType = byteAt b 1 ∧ f.datagramId.toNat = memRead b 2 4
          ∧ f.sequenceNum = byteAt b 6 ∧ f.payloadLen.toNat = memRead b 7 2
          ∧ f.payload = slice b 9 (9 + memRead b 7 2) ∧ f.crc32.toNat = memRead b (9 + memRead b 7 2) 4
          ∧ f.eof = byteAt b (13 + memRead b 7 2))

/-- 41_frame.md R66, round trip: whatever FRAME_PACK answers for a Frame value of the table in force, FRAME_UNPACK of it
under the same parameters and table answers that Frame value. -/
def Obligations.FrameRoundTrip : Prop :=
  ∀ (s : State) (f : FrameValue s.params s.table), s.tableValid = true →
    ∃ out : List Byte, exec (.framePack f.val) s = .next { s with result := some (.ok (.bytes out)) }
      ∧ exec (.frameUnpack out) s = .next { s with result := some (.ok (.frame f.val)) }

/-- 41_frame.md R66, the other direction: when FRAME_UNPACK of b answers f, FRAME_PACK of f answers the first
14 + payload_len bytes of b. -/
def Obligations.UnpackedFramePacksToItsBytes : Prop :=
  ∀ (s t : State) (b : List Byte) (f : Frame), exec (.frameUnpack b) s = .next t → t.result = some (.ok (.frame f)) →
    exec (.framePack f) s = .next { s with result := some (.ok (.bytes (b.take (14 + f.payloadLen.toNat)))) }

/-- 10_state.md R21: only FRAME_NEW and FRAME_UNPACK answer a Frame value, and every one they answer meets the invariant
(a) to (f) under the parameters and the table in force. -/
def Obligations.FrameValuesMeetTheInvariant : Prop :=
  ∀ (i : Instr) (s t : State) (f : Frame), exec i s = .next t → t.result = some (.ok (.frame f)) →
    frameInvariant s.params s.table f = true
      ∧ ((∃ ty id sq payload, i = .frameNew ty id sq payload) ∨ ∃ b, i = .frameUnpack b)

/-- The model's operand check (log 5) against 10_state.md R21: FRAME_PACK accepts a record, under some polynomial said
with it, exactly when FRAME_NEW or FRAME_UNPACK (or any operation) can answer that record as a Frame value in some state
of an instance with the same parameters that meets the block's invariant. -/
def Obligations.FrameOperandCheckIsExact : Prop :=
  ∀ (p : Params) (f : Frame), (∃ madeUnder, (Instr.framePack f).wellFormed p madeUnder = true) ↔
    ∃ (s t : State) (i : Instr), s.params = p ∧ Invariant s ∧ exec i s = .next t ∧ t.result = some (.ok (.frame f))

/-- 41_frame.md R62 (c), 93_implementation_defined.md U15, 70_reset_and_hazards.md R114: a presented record is packed if
and only if it meets R21 (a) to (f) under the table of the polynomial said with it (log 5); a Frame whose payload was
changed under an old crc32 that no longer matches is refused; and the payload FF FF FF FF with another crc32 than
0xFFFFFFFF is refused whatever polynomial is said (40_checksum.md R57 (c)). -/
def Obligations.OnlyFrameValuesArePacked : Prop :=
  ∀ (s : State) (c : Command) (rest : List HostEvent) (f : Frame), s.pending = .present c :: rest →
    decode c = .framePack f →
    (frameInvariant s.params (tableOf c.ports.madeUnder) f = true →
        step s = .next { s with pending := rest, result := some (.ok (.bytes (framePack f))) })
    ∧ (frameInvariant s.params (tableOf c.ports.madeUnder) f = false → step s = .refused .notAFrame)
    ∧ (∀ g : Frame, frameInvariant s.params (tableOf c.ports.madeUnder) g = true →
        f = { g with payload := f.payload } →
        checksum (tableOf c.ports.madeUnder) f.payload ≠ checksum (tableOf c.ports.madeUnder) g.payload →
        step s = .refused .notAFrame)
    ∧ (f.payload = [0xFF, 0xFF, 0xFF, 0xFF] → f.crc32 ≠ 0xFFFFFFFF → step s = .refused .notAFrame)

/-- 41_frame.md R62 and R69: a Frame value an operation answered packs later in every state of an instance with the same
parameters, reset and rebuilt ones included, when it is presented with the polynomial in POLY when it was made
(10_state.md R14; log 5). -/
def Obligations.AnsweredFramesPackLater : Prop :=
  ∀ (i : Instr) (s t u : State) (f : Frame) (rest : List HostEvent), Invariant s → exec i s = .next t →
    t.result = some (.ok (.frame f)) → u.params = s.params →
    u.pending = .present (encode (.framePack f) s.poly) :: rest →
    step u = .next { u with pending := rest, result := some (.ok (.bytes (framePack f))) }

/-- 40_checksum.md R55, 10_state.md R21: with any 256 entries for a table, built or not, a record of the right shape is a
Frame under one of them unless its payload is empty and its crc32 is not 0; so R21 (f) asks for the table a Frame was made
under (log 5). -/
def Obligations.SomeTableMakesTheFrame : Prop :=
  ∀ (p : Params) (f : Frame), (frameShape p f = true ∧ (f.payload = [] → f.crc32 = 0)) ↔
    ∃ t : Table, frameInvariant p t f = true

/-- 41_frame.md R65: bytes after the frame are not read with FRAME_TRAILING_BYTES = ignore; with reject one such byte
is ParseError(TrailingBytes). -/
def Obligations.BytesAfterTheFrame : Prop :=
  (∀ (s : State) (b extra : List Byte), s.params.trailing = .ignore → 14 ≤ b.length → 14 + memRead b 7 2 ≤ b.length →
      exec (.frameUnpack (b ++ extra)) s = exec (.frameUnpack b) s)
    ∧ (∀ (s : State) (b extra : List Byte), s.params.trailing = .reject → headerFits s.params b →
        b.length = 14 + memRead b 7 2 → extra ≠ [] →
        exec (.frameUnpack (b ++ extra)) s
          = .next { s with result := some (.error (.parseError .trailingBytes)) })

/-- 41_frame.md R67 (a), 70_reset_and_hazards.md R115: the checksum does not cover frame_type, datagram_id and
sequence_num: the packed bytes of a Frame with any of them changed unpack to OK with the changed values. -/
def Obligations.HeaderFieldsAreNotCovered : Prop :=
  ∀ (s : State) (f : Frame) (ty : Byte) (id : BitVec 32) (sq : Byte), s.tableValid = true →
    frameInvariant s.params s.table f = true → sq.toNat < 2 ^ s.params.seqBits.bits →
    exec (.frameUnpack (framePack { f with frameType := ty, datagramId := id, sequenceNum := sq })) s
      = .next { s with result := some (.ok (.frame { f with frameType := ty, datagramId := id, sequenceNum := sq })) }

/-- 41_frame.md R69, 70_reset_and_hazards.md R113: under a table whose checksum of the payload differs from the frame's,
the packed bytes of a Frame value (of every record that meets R21 (a) to (e)) end in ChecksumFailure. -/
def Obligations.OtherTableGivesChecksumFailure : Prop :=
  ∀ (s : State) (f : Frame), s.tableValid = true → frameShape s.params f = true →
    checksum s.table f.payload ≠ f.crc32 →
    exec (.frameUnpack (framePack f)) s = .next { s with result := some (.error .checksumFailure) }

/-- 30_encoding.md R49, 41_frame.md R66: what a sender builds (FRAME_BUILD), a receiver with the same parameters and
table checks as OK (FRAME_CHECK, code 0). -/
def Obligations.BuiltFrameChecksOk : Prop :=
  ∀ (s : State) (ty id sq : Nat) (payload : List Byte), s.tableValid = true → inRange s.params ty id sq payload →
    ∃ out, frameBuild s ty id sq payload = .ok out ∧ frameCheck s out = 0

/-! ### The acknowledgment decoder -/

/-- 42_ack.md R70 and R74, the completion, the error and the frame of ACK_PARSE: 262 bytes or more parse, in every state,
to the fields at their offsets; fewer are ParseError(ShortBuffer); bytes from offset 262 on change nothing. Nothing but
the result changes. -/
def Obligations.AckParseReadsTheRecord : Prop :=
  (∀ (s : State) (b : List Byte), b.length < 262 →
      exec (.ackParse b) s = .next { s with result := some (.error (.parseError .shortBuffer)) })
    ∧ (∀ (s : State) (b : List Byte), 262 ≤ b.length →
        ∃ a : Ack, exec (.ackParse b) s = .next { s with result := some (.ok (.ack a)) }
          ∧ a.ackStatus = byteAt b 0 ∧ a.responseToType = byteAt b 1 ∧ a.errorCode.toNat = memRead b 2 4
          ∧ a.errorMessage = trimNul (slice b 6 262))
    ∧ (∀ (s : State) (b extra : List Byte), b.length = 262 →
        exec (.ackParse (b ++ extra)) s = exec (.ackParse b) s)

/-- 42_ack.md R71: trim_nul(m) is m without trailing zero bytes, and ends in no zero byte. -/
def Obligations.TrimRemovesExactlyTheTrailingZeros : Prop :=
  ∀ m : List Byte, (∃ k, m = trimNul m ++ List.replicate k 0) ∧ (trimNul m).getLast? ≠ some 0

/-- 42_ack.md R72, the completion and the frame of ACK_IS_ACK: in every state the bit is 1 exactly when ack_status is
0. Nothing but the result changes. -/
def Obligations.AckIsAckOnlyForStatusZero : Prop :=
  (∀ (s : State) (a : Ack), a.ackStatus = 0 →
      exec (.ackIsAck a) s = .next { s with result := some (.ok (.bit true)) })
    ∧ (∀ (s : State) (a : Ack), a.ackStatus ≠ 0 →
        exec (.ackIsAck a) s = .next { s with result := some (.ok (.bit false)) })

/-- 42_ack.md R73: the three status classes, and ACK_IS_ACK tells ACK from the other two. -/
def Obligations.AckStatusClasses : Prop :=
  ∀ a : Ack, (ackClass a = .ack ↔ a.ackStatus.toNat = 0) ∧ (ackClass a = .nack ↔ a.ackStatus.toNat = 1)
    ∧ (ackClass a = .unknown ↔ 2 ≤ a.ackStatus.toNat) ∧ (ackIsAck a = true ↔ ackClass a = .ack)

/-- The model's operand check (log 6) against 10_state.md R22: a record passes it exactly when ACK_PARSE can answer
it. -/
def Obligations.AckOperandCheckIsExact : Prop :=
  ∀ a : Ack, a.wellFormed = true ↔ ∃ b : List Byte, ackParse b = .ok a

/-! ### Errors and whole-machine rules -/

/-- 60_exceptions.md R100, the completion and the frame of code 7: it selects no operation, whatever the operands, and
the result is IllegalOperation; nothing but the result changes. -/
def Obligations.CodeSevenIsIllegal : Prop :=
  (∀ ports : Ports, decode { op := 7, ports := ports } = .reserved7)
    ∧ ∀ s : State, exec .reserved7 s = .next { s with result := some (.error .illegalOperation) }

/-- 60_exceptions.md R99: with TABLE_VALID 0, CHECKSUM of every data, FRAME_NEW of operands in range and FRAME_UNPACK of
well-framed bytes answer TableNotBuilt, and no operation ever answers a checksum or a Frame. -/
def Obligations.UnbuiltTableGivesNoValue : Prop :=
  ∀ s : State, s.tableValid = false →
    (∀ data, exec (.checksum data) s = .next { s with result := some (.error .tableNotBuilt) })
    ∧ (∀ ty id sq payload, inRange s.params ty id sq payload →
        exec (.frameNew ty id sq payload) s = .next { s with result := some (.error .tableNotBuilt) })
    ∧ (∀ b, wellFramed s.params b →
        exec (.frameUnpack b) s = .next { s with result := some (.error .tableNotBuilt) })
    ∧ (∀ i t, exec i s = .next t → (∀ v, t.result ≠ some (.ok (.word v))) ∧ ∀ f, t.result ≠ some (.ok (.frame f)))

/-- 60_exceptions.md R101 and R102: every operation answers in every state; an error writes nothing but the result, the
next operation is accepted as before, and the same operation gives the same error again. -/
def Obligations.ErrorsChangeNothing : Prop :=
  ∀ (i : Instr) (s : State), ∃ t, exec i s = .next t
    ∧ ∀ e, t.result = some (.error e) → t = { s with result := some (.error e) } ∧ exec i t = .next t

/-- 10_state.md R14 to R16, 20_memory.md R38: POLY, TABLE and TABLE_VALID change only by BUILD_TABLE and by reset. -/
def Obligations.OnlyBuildTableAndResetWriteRegisters : Prop :=
  ∀ s t : State, step s = .next t →
    (t.poly = s.poly ∧ t.table = s.table ∧ t.tableValid = s.tableValid)
    ∨ (∃ rest, s.pending = .reset :: rest ∧ t.tableValid = false)
    ∨ (∃ c rest poly, s.pending = .present c :: rest ∧ decode c = .buildTable poly
        ∧ t.poly = poly ∧ t.table = tableOf poly ∧ t.tableValid = true)

/-- 10_state.md R24, 43_host_contract.md R94: the parameters of an instance never change. That they stand in State is
the model's (log 2). -/
def Obligations.ParametersNeverChange : Prop :=
  ∀ s t : State, step s = .next t → t.params = s.params

/-- 20_memory.md R34 (c), 10_state.md R19 and R23: an operation's result depends on its operands, the parameters and the
table left by the last BUILD_TABLE alone: not on POLY, not on an unbuilt table, not on an earlier result, not on what
is presented later. -/
def Obligations.ResultsDependOnTableAndParametersOnly : Prop :=
  ∀ (i : Instr) (s1 s2 : State), s1.params = s2.params → s1.tableValid = s2.tableValid →
    (s1.tableValid = true → s1.table = s2.table) →
    ∃ t1 t2, exec i s1 = .next t1 ∧ exec i s2 = .next t2 ∧ t1.result = t2.result

/-- 42_ack.md, 41_frame.md R62, 70_reset_and_hazards.md R112: FRAME_PACK, ACK_PARSE and ACK_IS_ACK read no state at all:
any two states give the same result, reset included. -/
def Obligations.PackAndAckReadNoState : Prop :=
  ∀ (i : Instr), (∃ f, i = .framePack f) ∨ (∃ b, i = .ackParse b) ∨ (∃ a, i = .ackIsAck a) →
    ∀ s1 s2 : State, ∃ t1 t2, exec i s1 = .next t1 ∧ exec i s2 = .next t2 ∧ t1.result = t2.result

/-- 70_reset_and_hazards.md R112, 43_host_contract.md R94: once the table is built, a host that presents only operations
other than code 7, with Frame and Ack values where they are asked for, and does not reset, sees neither TableNotBuilt nor
IllegalOperation and has no operand refused, however long it goes on. -/
def Obligations.BootedRunIsGood : Prop :=
  ∀ (n : Nat) (s : State), s.tableValid = true →
    (∀ e ∈ s.pending, ∃ c, e = .present c ∧ (decode c).wellFormed s.params c.ports.madeUnder = true
      ∧ decode c ≠ .reserved7) →
    goodRun n s = true

/-- The invariant of Safety.lean holds at State.reset. -/
def Obligations.ResetMeetsTheInvariant : Prop :=
  Invariant State.reset

/-- 10_state.md R15, R21, R22, 60_exceptions.md R99: every step keeps the invariant: a valid table is the table of POLY, a
checksum on the result port came from a built table, a Frame there meets R21 under the table in force, an Ack there is
an Ack value. -/
def Obligations.EveryStepKeepsTheInvariant : Prop :=
  ∀ s t : State, Invariant s → step s = .next t → Invariant t

/-! ### The host around the block (43_host_contract.md), an environment and no part of the machine -/

/-- 43_host_contract.md R82: the invariants of a datagram built from source bytes, and that its payloads in sequence
order, numbered from 1, are the source. -/
def Obligations.DatagramPayloadsAreTheSource : Prop :=
  ∀ (s : State) (hp : HostParams) (target : Byte) (id : Nat) (source : List Byte) (d : Datagram), 1 ≤ hp.chunkSize →
    datagramFromBytes s hp target id source = .ok d →
    (d.frames.map Frame.payload).flatten = source
      ∧ d.header.numPackets.toNat = d.frames.length
      ∧ d.header.totalLength.toNat = (d.frames.map fun f => f.payloadLen.toNat).sum
      ∧ d.header.datagramCrc32 = checksum s.table (d.frames.map Frame.payload).flatten
      ∧ d.frames.map (fun f => f.sequenceNum.toNat) = List.range' 1 d.frames.length

/-- 43_host_contract.md R81: an empty source gives a datagram with no payload frame, total_length 0 and datagram_crc32 0,
whenever its header frame can be built (MAX_PAYLOAD_LEN at least 20, R78). -/
def Obligations.EmptySourceIsADatagram : Prop :=
  ∀ (s : State) (hp : HostParams) (target : Byte) (id : Nat), 1 ≤ hp.chunkSize → s.tableValid = true →
    id ≤ 0xFFFFFFFF → 20 ≤ s.params.maxPayloadLen.val →
    ∃ d, datagramFromBytes s hp target id [] = .ok d ∧ d.frames = [] ∧ d.header.numPackets = 0
      ∧ d.header.totalLength = 0 ∧ d.header.datagramCrc32 = 0 ∧ d.headerFrame.sequenceNum = 0
      ∧ d.headerFrame.payload = headerBytes d.header

/-- 43_host_contract.md R79: a sealed header is intact in either reading of packet_crc32; with bit 0 of poly 1, a header
that differs from it in exactly one of its 20 bytes is not. Rests on 40_checksum.md R57 (e). -/
def Obligations.OneByteOfAHeaderIsSeen : Prop :=
  (∀ (t : Table) (r : HdrCrcRange) (h : DatagramHeader), headerIntact t r (sealHeader t r h) = true)
    ∧ ∀ (poly : Word) (r : HdrCrcRange) (h g : DatagramHeader) (i : Nat) (b : Byte), poly.getLsbD 0 = true →
        headerIntact (tableOf poly) r h = true → i < 20 → byteAt (headerBytes h) i ≠ b →
        headerBytes g = (headerBytes h).set i b → headerIntact (tableOf poly) r g = false

/-- 43_host_contract.md R85 and R91: only an acknowledgment record that parses with ack_status 0 lets the host advance,
and it keeps that Ack; a timeout, a short record, NACK and every unknown status retry; a frame that ends in
ChecksumFailure retries "exactly like a NACK". The model's choice (log 18): a frame that unpacks to OK and one that ends
in ParseError retry as no acknowledgment, and one that ends in TableNotBuilt, which R91 says is not retried, is
reported. -/
def Obligations.RepliesLeadToTheirMoves : Prop :=
  (∀ s : State, onReply s .timeout = .retry)
    ∧ (∀ (s : State) (b : List Byte), b.length < 262 → onReply s (.ack b) = .retry)
    ∧ (∀ (s : State) (b : List Byte), 262 ≤ b.length → byteAt b 0 ≠ 0 → onReply s (.ack b) = .retry)
    ∧ (∀ (s : State) (b : List Byte), 262 ≤ b.length → byteAt b 0 = 0 →
        ∃ a, ackParse b = .ok a ∧ onReply s (.ack b) = .advance a)
    ∧ (∀ (s t : State) (b : List Byte), exec (.frameUnpack b) s = .next t → t.result = some (.error .checksumFailure) →
        onReply s (.frame b) = .retry)
    ∧ (∀ (s t : State) (b : List Byte) (c : ParseCause), exec (.frameUnpack b) s = .next t →
        t.result = some (.error (.parseError c)) → onReply s (.frame b) = .retry)
    ∧ (∀ (s t : State) (b : List Byte), exec (.frameUnpack b) s = .next t → t.result = some (.error .tableNotBuilt) →
        onReply s (.frame b) = .report .tableNotBuilt)
    ∧ (∀ (s t : State) (b : List Byte) (f : Frame), exec (.frameUnpack b) s = .next t →
        t.result = some (.ok (.frame f)) → onReply s (.frame b) = .retry)
    ∧ (∀ (s : State) (r : Reply) (a : Ack), onReply s r = .advance a →
        ∃ b, r = .ack b ∧ ackParse b = .ok a ∧ a.ackStatus = 0)

/-- 43_host_contract.md R84, R85: the transmitter's moves for a frame come to what send_frame returns: its Ack, with the
next unit up, or its error, with the datagram Failed. -/
def Obligations.TransmitterMeetsSendFrame : Prop :=
  ∀ (s : State) (maxRetries : Nat) (f : Frame) (later : List (List Frame)) (replies : List Reply), ∃ n,
    match sendFrame s f maxRetries replies with
    | .ok a =>
        (txRun s maxRetries n (txStart ([f] :: later) replies)).phase = .idle
          ∧ (txRun s maxRetries n (txStart ([f] :: later) replies)).todo = later
          ∧ (txRun s maxRetries n (txStart ([f] :: later) replies)).acks = [a]
          ∧ (txRun s maxRetries n (txStart ([f] :: later) replies)).outcome = none
    | .error e => (txRun s maxRetries n (txStart ([f] :: later) replies)).outcome = some (.failed e)

/-- 43_host_contract.md R84: Advancing, Retrying and Aborted all lead back to Idle, whatever the rest of the
transmitter. -/
def Obligations.EveryVerdictLeadsToIdle : Prop :=
  ∀ (s : State) (maxRetries : Nat) (x : Transmitter), x.outcome = none →
    ((∃ a, x.phase = .advancing a) ∨ x.phase = .retrying ∨ ∃ e, x.phase = .aborted e) →
    (txStep s maxRetries x).phase = .idle

/-- 43_host_contract.md R91, R80: a datagram that cannot be built fails with the block's error, the id of the datagram and
the sequence number of the frame that failed: the first payload frame that FRAME_NEW does not make, or 0 when all are made
and the header frame fails. That an error of the whole-source CHECKSUM is reported with 0, and that TableNotBuilt is
reported like a ConstructionError, is the model's choice (log 18). -/
def Obligations.BuildFailuresNameTheFrame : Prop :=
  ∀ (s : State) (hp : HostParams) (target : Byte) (id : Nat) (source : List Byte) (x : TransferError),
    datagramFromBytes s hp target id source = .error x →
    ∃ e sq, x = .blockError e id sq ∧
      ((1 ≤ sq ∧ sq ≤ chunkCount hp.chunkSize source
          ∧ frameNew s hp.frameTypePayload.toNat id sq (chunkAt hp.chunkSize source sq) = .error e
          ∧ ∀ i, 1 ≤ i → i < sq →
              ∃ f, frameNew s hp.frameTypePayload.toNat id i (chunkAt hp.chunkSize source i) = .ok f)
        ∨ (sq = 0
          ∧ (∀ i, 1 ≤ i → i ≤ chunkCount hp.chunkSize source →
              ∃ f, frameNew s hp.frameTypePayload.toNat id i (chunkAt hp.chunkSize source i) = .ok f)
          ∧ (checksumNow s source = .error e
            ∨ ∃ crc, checksumNow s source = .ok crc
                ∧ frameNew s 0 id 0 (headerBytes
                    (datagramHeader s hp target id source (chunkCount hp.chunkSize source) crc)) = .error e)))

/-- 43_host_contract.md R86: when every reply leads to a retry, the first frame is sent exactly maxRetries + 1 times, the
same bytes each time, nothing else is sent, and the outcome is the failure that names that frame. The same from every idle
transmitter with a unit to send, later ones of a datagram and windows (R87) included: the unit is written maxRetries + 1
times after what was written before, and no further Ack is kept. The model's choices: a reply beyond the end of the list
is a timeout (log 17); a window is re-sent whole and its failure names its first frame (log 18). -/
def Obligations.RetryBoundIsExact : Prop :=
  (∀ (s : State) (maxRetries : Nat) (f : Frame) (later : List (List Frame)) (replies : List Reply),
      (∀ r ∈ replies, onReply s r = .retry) →
      ∃ n, (txRun s maxRetries n (txStart ([f] :: later) replies)).outcome
            = some (.failed (.retryExhausted f.datagramId f.sequenceNum))
        ∧ (txRun s maxRetries n (txStart ([f] :: later) replies)).written
            = List.replicate (maxRetries + 1) (framePack f))
    ∧ ∀ (s : State) (maxRetries : Nat) (x : Transmitter) (f : Frame) (fs : List Frame) (later : List (List Frame)),
        x.phase = .idle → x.outcome = none → x.retries = 0 → x.todo = (f :: fs) :: later →
        (∀ r ∈ x.replies, onReply s r = .retry) →
        ∃ n, (txRun s maxRetries n x).outcome = some (.failed (.retryExhausted f.datagramId f.sequenceNum))
          ∧ (txRun s maxRetries n x).written
              = x.written ++ (List.replicate (maxRetries + 1) ((f :: fs).map framePack)).flatten
          ∧ (txRun s maxRetries n x).acks = x.acks

/-- 43_host_contract.md R88, in either acknowledgment mode (R87): when every reply lets the host advance and there is one
for each unit, each frame is sent exactly once, header first, in order, each unit's Ack is kept, and the datagram
completes. -/
def Obligations.CleanRepliesComplete : Prop :=
  ∀ (s : State) (maxRetries : Nat) (units : List (List Frame)) (replies : List Reply), units.length ≤ replies.length →
    (∀ r ∈ replies, ∃ a, onReply s r = .advance a) →
    ∃ n, (txRun s maxRetries n (txStart units replies)).outcome = some .completed
      ∧ (txRun s maxRetries n (txStart units replies)).written = units.flatten.map framePack
      ∧ (txRun s maxRetries n (txStart units replies)).acks.map HostMove.advance
          = (replies.take units.length).map (onReply s)
end

