-- ==== Sys2Proof/Laws/Checksum.lean ====
section
/-! SUPPORT. The table BUILD_TABLE writes, entry by entry, and what the checksum reads of the state. -/

namespace Sys2Proof.Machine

theorem readEntry_tableOf (poly : Word) (i : Byte) : readEntry (tableOf poly) i = crcEntry poly i := by
  simp [readEntry, tableOf]

theorem groupFeed_eq (data : List Byte) (g : Nat) :
    groupFeed data g
      = [inputByte data (4 * g + 3), inputByte data (4 * g + 2), inputByte data (4 * g + 1), inputByte data (4 * g)] :=
  rfl

theorem inputByte_of_le (data : List Byte) (j : Nat) (h : data.length ≤ j) : inputByte data j = 0 := by
  simp [inputByte, Nat.not_lt.mpr h]

theorem checksumNow_of_valid (s : State) (data : List Byte) (h : s.tableValid = true) :
    checksumNow s data = .ok (checksum s.table data) := by
  simp [checksumNow, h]

theorem checksumNow_of_not_valid (s : State) (data : List Byte) (h : s.tableValid = false) :
    checksumNow s data = .error .tableNotBuilt := by
  simp [checksumNow, h]

end Sys2Proof.Machine
end

