-- ==== Sys2Proof/Laws/Operands.lean ====
section
/-! SUPPORT. Byte buffers: lengths, slices of concatenations, and that reading a little-endian field inverts writing
it. -/

namespace Sys2Proof.Machine

@[simp] theorem leBytes_length (n v : Nat) : (leBytes n v).length = n := by
  induction n generalizing v with
  | zero => rfl
  | succ n ih => simp [leBytes, ih]

/-- Reading n bytes written little-endian gives the number back, to n bytes. -/
theorem leValue_leBytes (n v : Nat) : leValue (leBytes n v) = v % 256 ^ n := by
  induction n generalizing v with
  | zero => simp [leBytes, leValue, Nat.mod_one]
  | succ n ih =>
    simp only [leBytes, leValue, ih, BitVec.toNat_ofNat]
    have h : v % 256 ^ (n + 1) = v % 256 + 256 * (v / 256 % 256 ^ n) := by rw [pow_succ', Nat.mod_mul]
    exact h.symm

theorem leValue_lt (bs : List Byte) : leValue bs < 256 ^ bs.length := by
  induction bs with
  | nil => simp [leValue]
  | cons x xs ih =>
    have := x.isLt
    simp only [leValue, List.length_cons, pow_succ']
    omega

/-- Writing what was read gives the same bytes. -/
theorem leBytes_leValue (bs : List Byte) : leBytes bs.length (leValue bs) = bs := by
  induction bs with
  | nil => rfl
  | cons x xs ih =>
    have hx := x.isLt
    have h1 : (x.toNat + 256 * leValue xs) / 256 = leValue xs := by omega
    have h2 : BitVec.ofNat 8 (x.toNat + 256 * leValue xs) = x := by
      apply BitVec.eq_of_toNat_eq
      simp only [BitVec.toNat_ofNat]
      omega
    simp [leBytes, leValue, h1, h2, ih]

theorem slice_length (buf : List Byte) (a b : Nat) : (slice buf a b).length = min b buf.length - a := by
  simp [slice]

/-- A slice that ends inside the first part of a concatenation. -/
theorem slice_append_left (x y : List Byte) (a b : Nat) (h : b ≤ x.length) :
    slice (x ++ y) a b = slice x a b := by
  simp [slice, List.take_append_of_le_length h]

/-- A slice that starts at or after the second part of a concatenation. -/
theorem slice_append_right (x y : List Byte) (a b : Nat) (h : x.length ≤ a) :
    slice (x ++ y) a b = slice y (a - x.length) (b - x.length) := by
  simp only [slice, List.take_append, List.drop_append, List.length_take]
  rcases Nat.le_total x.length b with hb | hb
  · rw [Nat.min_eq_right hb, List.take_of_length_le hb, List.drop_eq_nil_of_le h, List.nil_append]
  · rw [Nat.sub_eq_zero_of_le hb]
    simp [List.drop_eq_nil_of_le (show (x.take b).length ≤ a by simp; omega)]

/-- The whole of the middle part of three. -/
theorem slice_middle (x y z : List Byte) :
    slice (x ++ y ++ z) x.length (x.length + y.length) = y := by
  rw [slice_append_left _ _ _ _ (by simp), slice_append_right _ _ _ _ le_rfl]
  simp [slice]

theorem byteAt_append_left (x y : List Byte) (i : Nat) (h : i < x.length) :
    byteAt (x ++ y) i = byteAt x i := by
  exact List.getD_append x y 0 i h

theorem byteAt_append_right (x y : List Byte) (i : Nat) (h : x.length ≤ i) :
    byteAt (x ++ y) i = byteAt y (i - x.length) := by
  exact List.getD_append_right x y 0 i h

/-- A field read that ends inside the first part of a concatenation. -/
theorem memRead_append_left (x y : List Byte) (off n : Nat) (h : off + n ≤ x.length) :
    memRead (x ++ y) off n = memRead x off n := by
  simp only [memRead, slice_append_left _ _ _ _ h]

theorem memRead_lt (buf : List Byte) (off n : Nat) : memRead buf off n < 256 ^ n := by
  refine lt_of_lt_of_le (leValue_lt _) (Nat.pow_le_pow_right (by norm_num) ?_)
  rw [slice_length]
  omega

theorem trimNul_length_le (m : List Byte) : (trimNul m).length ≤ m.length := by
  simpa [trimNul] using (List.dropWhile_sublist (· == 0) (l := m.reverse)).length_le

end Sys2Proof.Machine
end

