-- ==== Sys2Proof/Laws/Frame.lean ====
section
/-! SUPPORT. What FRAME_NEW, FRAME_PACK and FRAME_UNPACK can do, said once. -/

namespace Sys2Proof.Machine

theorem framePack_length (f : Frame) : (framePack f).length = 14 + f.payload.length := by
  simp [framePack]
  omega

/-- If FRAME_NEW gives a Frame, every range check passed, the table was built, and this is the Frame. -/
theorem frameNew_ok (s : State) (ty id sq : Nat) (payload : List Byte) (f : Frame)
    (h : frameNew s ty id sq payload = .ok f) :
    ty ≤ 255 ∧ id ≤ 0xFFFFFFFF ∧ sq < 2 ^ s.params.seqBits.bits ∧ payload.length ≤ s.params.maxPayloadLen.val
      ∧ s.tableValid = true
      ∧ f = ⟨s.params.sofValue, BitVec.ofNat 8 ty, BitVec.ofNat 32 id, BitVec.ofNat 8 sq,
              BitVec.ofNat 16 payload.length, payload, checksum s.table payload, s.params.eofValue⟩ := by
  unfold frameNew at h
  split_ifs at h with h1 h2 h3 h4 h5
  injection h with h
  exact ⟨by omega, by omega, by omega, by omega, by simpa using h5, h.symm⟩

/-- If FRAME_UNPACK gives a Frame, every check passed, and this is the Frame. -/
theorem frameUnpack_ok (s : State) (b : List Byte) (f : Frame) (h : frameUnpack s b = .ok f) :
    14 + memRead b 7 2 ≤ b.length ∧ byteAt b 0 = s.params.sofValue
      ∧ memRead b 7 2 ≤ s.params.maxPayloadLen.val
      ∧ (s.params.trailing = .reject → b.length = 14 + memRead b 7 2)
      ∧ byteAt b (13 + memRead b 7 2) = s.params.eofValue
      ∧ (byteAt b 6).toNat < 2 ^ s.params.seqBits.bits ∧ s.tableValid = true
      ∧ checksum s.table (slice b 9 (9 + memRead b 7 2)) = BitVec.ofNat 32 (memRead b (9 + memRead b 7 2) 4)
      ∧ f = ⟨byteAt b 0, byteAt b 1, BitVec.ofNat 32 (memRead b 2 4), byteAt b 6, BitVec.ofNat 16 (memRead b 7 2),
              slice b 9 (9 + memRead b 7 2), BitVec.ofNat 32 (memRead b (9 + memRead b 7 2) 4),
              byteAt b (13 + memRead b 7 2)⟩ := by
  unfold frameUnpack at h
  simp only [Config.frameOverhead] at h
  split_ifs at h with h1 h2 h3 h4 h5 h6 h7 h8 h9
  injection h with h
  refine ⟨by omega, by simpa using h2, by omega, ?_, by simpa using h6, by omega, by simpa using h8,
    by simpa using h9, h.symm⟩
  intro hr
  have : ¬ (b.length > 14 + memRead b 7 2) := fun hgt => h5 ⟨hr, hgt⟩
  omega

end Sys2Proof.Machine
end

