-- ==== Sys2Proof/Laws/PerInstr.lean ====
section
/-! SUPPORT. Facts about every instruction as syntax, one lemma per constructor. -/

namespace Sys2Proof.Laws.RoundTrip

/-- The select code of an instruction, given to the decoder with the instruction's operands on the ports, selects that
instruction again (30_encoding.md R40). -/
def Statement (i : Instr) : Prop :=
  ∀ madeUnder : Word, decode (encode i madeUnder) = i

theorem buildTable (poly : Word) : Statement (.buildTable poly) := fun _ => rfl
theorem checksum (data : List Byte) : Statement (.checksum data) := fun _ => rfl
theorem frameNew (frameType datagramId sequenceNum : Nat) (payload : List Byte) :
    Statement (.frameNew frameType datagramId sequenceNum payload) := fun _ => rfl
theorem framePack (f : Frame) : Statement (.framePack f) := fun _ => rfl
theorem frameUnpack (b : List Byte) : Statement (.frameUnpack b) := fun _ => rfl
theorem ackParse (b : List Byte) : Statement (.ackParse b) := fun _ => rfl
theorem ackIsAck (a : Ack) : Statement (.ackIsAck a) := fun _ => rfl
theorem reserved7 : Statement .reserved7 := fun _ => rfl

end Sys2Proof.Laws.RoundTrip
end

