-- ==== Sys2Proof/Laws/State.lean ====
section
/-! SUPPORT. Each field of the state after each of its updates, so that no proof unfolds one. -/

namespace Sys2Proof.Machine

@[simp] theorem State.loadTable_poly (p : Word) (t : Table) (s : State) : (s.loadTable p t).poly = p := rfl
@[simp] theorem State.loadTable_table (p : Word) (t : Table) (s : State) : (s.loadTable p t).table = t := rfl
@[simp] theorem State.loadTable_tableValid (p : Word) (t : Table) (s : State) : (s.loadTable p t).tableValid = true := rfl
@[simp] theorem State.loadTable_params (p : Word) (t : Table) (s : State) : (s.loadTable p t).params = s.params := rfl
@[simp] theorem State.loadTable_pending (p : Word) (t : Table) (s : State) : (s.loadTable p t).pending = s.pending := rfl
@[simp] theorem State.loadTable_result (p : Word) (t : Table) (s : State) : (s.loadTable p t).result = s.result := rfl
@[simp] theorem State.loadTable_resets (p : Word) (t : Table) (s : State) : (s.loadTable p t).resets = s.resets := rfl

@[simp] theorem State.complete_poly (v : Value) (s : State) : (s.complete v).poly = s.poly := rfl
@[simp] theorem State.complete_table (v : Value) (s : State) : (s.complete v).table = s.table := rfl
@[simp] theorem State.complete_tableValid (v : Value) (s : State) : (s.complete v).tableValid = s.tableValid := rfl
@[simp] theorem State.complete_params (v : Value) (s : State) : (s.complete v).params = s.params := rfl
@[simp] theorem State.complete_pending (v : Value) (s : State) : (s.complete v).pending = s.pending := rfl
@[simp] theorem State.complete_result (v : Value) (s : State) : (s.complete v).result = some (.ok v) := rfl
@[simp] theorem State.complete_resets (v : Value) (s : State) : (s.complete v).resets = s.resets := rfl

@[simp] theorem State.raise_poly (e : Error) (s : State) : (s.raise e).poly = s.poly := rfl
@[simp] theorem State.raise_table (e : Error) (s : State) : (s.raise e).table = s.table := rfl
@[simp] theorem State.raise_tableValid (e : Error) (s : State) : (s.raise e).tableValid = s.tableValid := rfl
@[simp] theorem State.raise_params (e : Error) (s : State) : (s.raise e).params = s.params := rfl
@[simp] theorem State.raise_pending (e : Error) (s : State) : (s.raise e).pending = s.pending := rfl
@[simp] theorem State.raise_result (e : Error) (s : State) : (s.raise e).result = some (.error e) := rfl
@[simp] theorem State.raise_resets (e : Error) (s : State) : (s.raise e).resets = s.resets := rfl

@[simp] theorem State.resetEvent_poly (s : State) : (s.resetEvent).poly = Config.unspecifiedPoly (s.resets + 1) := rfl
@[simp] theorem State.resetEvent_table (s : State) : (s.resetEvent).table = Config.unspecifiedTable (s.resets + 1) := rfl
@[simp] theorem State.resetEvent_tableValid (s : State) : (s.resetEvent).tableValid = false := rfl
@[simp] theorem State.resetEvent_params (s : State) : (s.resetEvent).params = s.params := rfl
@[simp] theorem State.resetEvent_pending (s : State) : (s.resetEvent).pending = s.pending := rfl
@[simp] theorem State.resetEvent_result (s : State) : (s.resetEvent).result = none := rfl
@[simp] theorem State.resetEvent_resets (s : State) : (s.resetEvent).resets = s.resets + 1 := rfl

@[simp] theorem State.takeEvent_poly (l : List HostEvent) (s : State) : (s.takeEvent l).poly = s.poly := rfl
@[simp] theorem State.takeEvent_table (l : List HostEvent) (s : State) : (s.takeEvent l).table = s.table := rfl
@[simp] theorem State.takeEvent_tableValid (l : List HostEvent) (s : State) : (s.takeEvent l).tableValid = s.tableValid := rfl
@[simp] theorem State.takeEvent_params (l : List HostEvent) (s : State) : (s.takeEvent l).params = s.params := rfl
@[simp] theorem State.takeEvent_pending (l : List HostEvent) (s : State) : (s.takeEvent l).pending = l := rfl
@[simp] theorem State.takeEvent_result (l : List HostEvent) (s : State) : (s.takeEvent l).result = none := rfl
@[simp] theorem State.takeEvent_resets (l : List HostEvent) (s : State) : (s.takeEvent l).resets = s.resets := rfl

@[simp] theorem State.presentFirst_poly (c : Command) (s : State) : (s.presentFirst c).poly = s.poly := rfl
@[simp] theorem State.presentFirst_table (c : Command) (s : State) : (s.presentFirst c).table = s.table := rfl
@[simp] theorem State.presentFirst_tableValid (c : Command) (s : State) : (s.presentFirst c).tableValid = s.tableValid := rfl
@[simp] theorem State.presentFirst_params (c : Command) (s : State) : (s.presentFirst c).params = s.params := rfl
@[simp] theorem State.presentFirst_pending (c : Command) (s : State) : (s.presentFirst c).pending = .present c :: s.pending := rfl
@[simp] theorem State.presentFirst_result (c : Command) (s : State) : (s.presentFirst c).result = s.result := rfl
@[simp] theorem State.presentFirst_resets (c : Command) (s : State) : (s.presentFirst c).resets = s.resets := rfl

@[simp] theorem State.answer_ok (v : Value) (s : State) : s.answer (.ok v) = s.complete v := rfl
@[simp] theorem State.answer_error (e : Error) (s : State) : s.answer (.error e) = s.raise e := rfl

@[simp] theorem State.answer_poly (r : Except Error Value) (s : State) : (s.answer r).poly = s.poly := by cases r <;> rfl
@[simp] theorem State.answer_table (r : Except Error Value) (s : State) : (s.answer r).table = s.table := by cases r <;> rfl
@[simp] theorem State.answer_tableValid (r : Except Error Value) (s : State) : (s.answer r).tableValid = s.tableValid := by cases r <;> rfl
@[simp] theorem State.answer_params (r : Except Error Value) (s : State) : (s.answer r).params = s.params := by cases r <;> rfl
@[simp] theorem State.answer_pending (r : Except Error Value) (s : State) : (s.answer r).pending = s.pending := by cases r <;> rfl
@[simp] theorem State.answer_resets (r : Except Error Value) (s : State) : (s.answer r).resets = s.resets := by cases r <;> rfl

/-- An operation that ends leaves only its result. -/
theorem State.answer_eq (r : Except Error Value) (s : State) :
    s.answer r = { s with result := (s.answer r).result } := by
  cases r <;> rfl

@[simp] theorem State.reset_tableValid : State.reset.tableValid = false := rfl
@[simp] theorem State.reset_pending : State.reset.pending = [] := rfl
@[simp] theorem State.reset_result : State.reset.result = none := rfl

end Sys2Proof.Machine
end

