-- ==== Sys2Proof/Laws/Step.lean ====
section
/-! SUPPORT. What one operation and one step can do, said once. -/

namespace Sys2Proof.Machine

/-- Every operation ends in the state it started in with a result, but BUILD_TABLE, which also loads the table. -/
theorem exec_cases (i : Instr) (s t : State) (h : exec i s = .next t) :
    (∃ poly, i = .buildTable poly ∧ t = (s.loadTable poly (tableOf poly)).complete .none)
      ∨ ((∀ poly, i ≠ .buildTable poly) ∧ ∃ r, t = s.answer r) := by
  cases i
  case buildTable poly =>
    injection h with h
    exact .inl ⟨poly, rfl, h.symm⟩
  case framePack f =>
    injection h with h
    exact .inr ⟨by simp, .ok (.bytes (framePack f)), h.symm⟩
  case ackIsAck a =>
    injection h with h
    exact .inr ⟨by simp, .ok (.bit (ackIsAck a)), h.symm⟩
  case reserved7 =>
    injection h with h
    exact .inr ⟨by simp, .error .illegalOperation, h.symm⟩
  all_goals
    injection h with h
    exact .inr ⟨by simp, _, h.symm⟩

/-- Everything `fetch` can give. -/
theorem fetch_cases (s : State) :
    (s.pending = [] ∧ fetch s = .idle (s.takeEvent []))
      ∨ (∃ rest, s.pending = .reset :: rest ∧ fetch s = .reset (s.takeEvent rest).resetEvent)
      ∨ (∃ c rest, s.pending = .present c :: rest ∧ (decode c).wellFormed s.params c.ports.madeUnder = true
          ∧ fetch s = .run (decode c) (s.takeEvent rest))
      ∨ (∃ c rest, s.pending = .present c :: rest ∧ (decode c).wellFormed s.params c.ports.madeUnder = false
          ∧ fetch s = .reject (operandRefusal (decode c))) := by
  unfold fetch
  rcases hp : s.pending with _ | ⟨_ | _, rest⟩
  · exact .inl ⟨rfl, rfl⟩
  · rename_i c
    cases hw : (decode c).wellFormed s.params c.ports.madeUnder
    · exact .inr (.inr (.inr ⟨c, rest, rfl, hw, by simp [hw]⟩))
    · exact .inr (.inr (.inl ⟨c, rest, rfl, hw, by simp [hw]⟩))
  · exact .inr (.inl ⟨rest, rfl, rfl⟩)

/-- Everything a step that answers a next state can have done. -/
theorem step_cases (s t : State) (h : step s = .next t) :
    (s.pending = [] ∧ t = s.takeEvent [])
      ∨ (∃ rest, s.pending = .reset :: rest ∧ t = (s.takeEvent rest).resetEvent)
      ∨ (∃ c rest, s.pending = .present c :: rest ∧ (decode c).wellFormed s.params c.ports.madeUnder = true
          ∧ exec (decode c) (s.takeEvent rest) = .next t) := by
  unfold step at h
  rcases fetch_cases s with ⟨hp, hf⟩ | ⟨rest, hp, hf⟩ | ⟨c, rest, hp, hw, hf⟩ | ⟨c, rest, hp, hw, hf⟩ <;>
    rw [hf] at h
  · injection h with h
    exact .inl ⟨hp, h.symm⟩
  · injection h with h
    exact .inr (.inl ⟨rest, hp, h.symm⟩)
  · exact .inr (.inr ⟨c, rest, hp, hw, h⟩)
  · cases h

end Sys2Proof.Machine
end

