-- ==== Sys2Proof/Laws/WellFormed.lean ====
section
/-! SUPPORT. The decidable checks as propositions. -/

namespace Sys2Proof.Machine

theorem frameShape_iff (p : Params) (f : Frame) :
    frameShape p f = true ↔
      f.sof = p.sofValue ∧ f.eof = p.eofValue ∧ f.payloadLen.toNat = f.payload.length
        ∧ f.payload.length ≤ p.maxPayloadLen.val ∧ f.sequenceNum.toNat < 2 ^ p.seqBits.bits := by
  unfold frameShape
  simp only [Bool.and_eq_true, beq_iff_eq, decide_eq_true_eq]
  tauto

theorem frameInvariant_iff (p : Params) (t : Table) (f : Frame) :
    frameInvariant p t f = true ↔ frameShape p f = true ∧ f.crc32 = checksum t f.payload := by
  unfold frameInvariant
  rw [Bool.and_eq_true, beq_iff_eq]

theorem wellFormed_frame_iff (p : Params) (madeUnder : Word) (f : Frame) :
    f.wellFormed p madeUnder = true ↔
      frameShape p f = true ∧ f.crc32 = checksum (tableOf madeUnder) f.payload :=
  frameInvariant_iff p (tableOf madeUnder) f

theorem wellFormed_ack_iff (a : Ack) :
    a.wellFormed = true ↔ a.errorMessage.length ≤ 256 ∧ a.errorMessage.getLast? ≠ some 0 := by
  unfold Ack.wellFormed Config.errorMessageSize
  rw [Bool.and_eq_true, decide_eq_true_eq, bne_iff_ne]

end Sys2Proof.Machine
end

