-- ==== Sys2Proof/Tests/Slice0.lean ====
section
/-! SUPPORT. The model's own tests. Expected values are those of spec/95_test_vectors.md (the vector is named at each
test) or of the rule named there, under EX1 (00_scope.md R8). Then, for every obligation with hypotheses, a witness that
they can be met together, clause by clause at boundary values. -/

open Sys2Proof Sys2Proof.Machine Sys2Proof.Spec

namespace Sys2Proof.Tests

-- One test after another: evaluated side by side they need more memory than the check allows.
set_option Elab.async false

/-- EX1 with a table built from a polynomial. -/
def built (poly : Word) : State :=
  { State.reset with poly := poly, table := tableOf poly, tableValid := true }

/-- EX1 with its own polynomial. -/
def ex1 : State := built 0x04C11DB7

/-- A built EX1 state with SEQ_BITS = 3. -/
def seq3 : State := { ex1 with params := { Params.ex1 with seqBits := .three } }

/-- A built EX1 state with FRAME_TRAILING_BYTES = reject. -/
def rejecting : State := { ex1 with params := { Params.ex1 with trailing := .reject } }

/-- The result an outcome leaves. -/
def resultOf : Host.Outcome State Fault Refusal → Option Result
  | .next t => t.result
  | _ => none

/-- V-FF-1: the Frame and its wire bytes. -/
def frameF : Frame := ⟨0xAA, 0x01, 0x12345678, 0x01, 0x0005, [1, 2, 3, 4, 5], 0x45DC841C, 0xBB⟩

def wireF : List Byte :=
  [0xAA, 0x01, 0x78, 0x56, 0x34, 0x12, 0x01, 0x05, 0x00, 0x01, 0x02, 0x03, 0x04, 0x05, 0x1C, 0x84, 0xDC, 0x45, 0xBB]

/-- V-AD-1: the record of a NACK with code 42 and message "bad". -/
def recordBad : List Byte := [0x01, 0x02, 0x2A, 0, 0, 0, 0x62, 0x61, 0x64] ++ List.replicate 253 0

/-- A frame of zero bytes (V-FF-2's, V-FF-6's shape): n payload bytes. -/
def zeros (n : Nat) : List Byte := List.replicate n 0

/-! ### Well-formedness: an ill-formed term for each check, and the boundary -/

theorem test_wf_sof : Frame.wellFormed Params.ex1 0x04C11DB7 { frameF with sof := 0xAB } = false := by decide +kernel
theorem test_wf_eof : Frame.wellFormed Params.ex1 0x04C11DB7 { frameF with eof := 0xAA } = false := by decide +kernel
theorem test_wf_len : Frame.wellFormed Params.ex1 0x04C11DB7 { frameF with payloadLen := 4 } = false := by decide +kernel
theorem test_wf_max :
    Frame.wellFormed { Params.ex1 with maxPayloadLen := 4 } 0x04C11DB7 frameF = false
      ∧ Frame.wellFormed { Params.ex1 with maxPayloadLen := 5 } 0x04C11DB7 frameF = true := by decide +kernel
theorem test_wf_seq :
    Frame.wellFormed { Params.ex1 with seqBits := .three } 0x04C11DB7 { frameF with sequenceNum := 8 } = false
      ∧ Frame.wellFormed { Params.ex1 with seqBits := .three } 0x04C11DB7 { frameF with sequenceNum := 7 } = true := by
  decide +kernel
/-- R21 (f): a stale checksum, another polynomial's Frame, and 40_checksum.md R57 (c)'s payload with crc32 0. -/
theorem test_wf_crc :
    Frame.wellFormed Params.ex1 0x04C11DB7 { frameF with payload := [0, 2, 3, 4, 5] } = false
      ∧ Frame.wellFormed Params.ex1 0x1EDC6F41 frameF = false
      ∧ Frame.wellFormed Params.ex1 0x04C11DB7
          { frameF with payloadLen := 4, payload := [0xFF, 0xFF, 0xFF, 0xFF], crc32 := 0 } = false := by decide +kernel
theorem test_wf_frame : (Instr.framePack frameF).wellFormed Params.ex1 0x04C11DB7 = true := by decide +kernel
theorem test_wf_ack_last_zero : (Ack.wellFormed ⟨0, 0, 0, [0x61, 0]⟩) = false := by decide
theorem test_wf_ack_length : (Ack.wellFormed ⟨0, 0, 0, List.replicate 257 1⟩) = false := by decide +kernel
theorem test_wf_ack_full : (Ack.wellFormed ⟨0, 0, 0, List.replicate 256 1⟩) = true := by decide +kernel

/-! ### Decoding: the select codes of 30_encoding.md R40, written bit by bit -/

/-- Ports with a different value on each, to see which one an operation takes. -/
def marked : Ports :=
  { poly := 0x04C11DB7, bytes := [9], frameType := 1, datagramId := 2, sequenceNum := 3, frame := frameF,
    madeUnder := 0x04C11DB7, ack := ⟨4, 5, 6, [7]⟩ }

theorem test_decode_buildTable : decode ⟨0b000, marked⟩ = .buildTable 0x04C11DB7 := by decide
theorem test_decode_checksum : decode ⟨0b001, marked⟩ = .checksum [9] := by decide
theorem test_decode_frameNew : decode ⟨0b010, marked⟩ = .frameNew 1 2 3 [9] := by decide
theorem test_decode_framePack : decode ⟨0b011, marked⟩ = .framePack frameF := by decide
theorem test_decode_frameUnpack : decode ⟨0b100, marked⟩ = .frameUnpack [9] := by decide
theorem test_decode_ackParse : decode ⟨0b101, marked⟩ = .ackParse [9] := by decide
theorem test_decode_ackIsAck : decode ⟨0b110, marked⟩ = .ackIsAck ⟨4, 5, 6, [7]⟩ := by decide
theorem test_decode_reserved : decode ⟨0b111, marked⟩ = .reserved7 := by decide

/-- Every table word runs as the first operation after reset. -/
theorem test_words_run :
    ∀ w < 8, (match step (State.reset.withFetchWord 8 w) with | .next _ => true | _ => false) = true := by decide
theorem test_short_word_refused : decodeTableWord 2 1 = none := by decide

/-! ### BUILD_TABLE and CHECKSUM -/

/-- V-CE-1, V-CE-2. -/
theorem test_table_entries :
    crcEntry 0x04C11DB7 0x02 = 0x09823B6E ∧ crcEntry 0x04C11DB7 0x80 = 0x690CE0EE
      ∧ crcEntry 0x04C11DB7 0xFF = 0xB1F740B4 := by decide +kernel
/-- V-CE-4. -/
theorem test_table_other_polynomials :
    crcEntry 0x1EDC6F41 0xFF = 0x8ACABEB5 ∧ crcEntry 1 0x5A = 0x5A ∧ crcEntry 0x80000000 0xFF = 0 := by decide +kernel
/-- V-CE-20, V-CE-10. -/
theorem test_checksum_five_bytes :
    resultOf (exec (.checksum [1, 2, 3, 4, 5]) ex1) = some (.ok (.word 0x45DC841C)) := by decide +kernel
/-- V-CE-12, V-CE-13, V-CE-17, V-CE-18. -/
theorem test_checksum_vectors :
    checksum ex1.table [] = 0 ∧ checksum ex1.table [1] = 0x3C3A3F33 ∧ checksum ex1.table [0, 0, 0, 1] = 0xE496B833
      ∧ checksum ex1.table [0x78, 0x56, 0x34, 0x12] = 0x207575D4
      ∧ checksum ex1.table [0x31, 0x32, 0x33, 0x34, 0x35, 0x36, 0x37, 0x38, 0x39] = 0x500E6FA8 := by decide +kernel
/-- V-CE-22: another polynomial. -/
theorem test_checksum_other_polynomial :
    checksum (tableOf 0x1EDC6F41) [1, 2, 3, 4, 5] = 0x31A73833 ∧ checksum (tableOf 1) [1, 2, 3, 4] = 0x04030201 := by
  decide +kernel

/-! ### FRAME_NEW, FRAME_PACK, FRAME_UNPACK -/

/-- V-FF-1. -/
theorem test_frameNew :
    resultOf (exec (.frameNew 1 0x12345678 1 [1, 2, 3, 4, 5]) ex1) = some (.ok (.frame frameF)) := by decide +kernel
/-- V-FF-5: the order of the checks. -/
theorem test_frameNew_order :
    resultOf (exec (.frameNew 256 0x100000000 256 (zeros 129)) State.reset)
        = some (.error (.constructionError .frameTypeRange))
      ∧ resultOf (exec (.frameNew 255 0x100000000 256 (zeros 129)) ex1)
        = some (.error (.constructionError .datagramIdRange))
      ∧ resultOf (exec (.frameNew 255 0xFFFFFFFF 256 (zeros 129)) ex1)
        = some (.error (.constructionError .sequenceRange))
      ∧ resultOf (exec (.frameNew 255 0xFFFFFFFF 255 (zeros 129)) ex1)
        = some (.error (.constructionError .payloadTooLarge)) := by decide +kernel
/-- V-FF-1. -/
theorem test_framePack : resultOf (exec (.framePack frameF) State.reset) = some (.ok (.bytes wireF)) := by decide +kernel
/-- V-FF-2. -/
theorem test_framePack_empty :
    framePack (Frame.empty Params.ex1) = [0xAA, 0, 0, 0, 0, 0, 0, 0, 0, 0, 0, 0, 0, 0xBB] := by decide
/-- V-FF-1. -/
theorem test_frameUnpack : resultOf (exec (.frameUnpack wireF) ex1) = some (.ok (.frame frameF)) := by decide +kernel
/-- V-FF-8, V-FF-9: framing is checked before the table and before the checksum. -/
theorem test_frameUnpack_errors :
    resultOf (exec (.frameUnpack (wireF.set 9 0)) ex1) = some (.error .checksumFailure)
      ∧ resultOf (exec (.frameUnpack (wireF.set 7 4)) ex1) = some (.error (.parseError .badEOF))
      ∧ resultOf (exec (.frameUnpack (wireF.set 7 0x81)) ex1) = some (.error (.parseError .lengthField))
      ∧ resultOf (exec (.frameUnpack (wireF.set 0 0xAB)) State.reset) = some (.error (.parseError .badSOF))
      ∧ resultOf (exec (.frameUnpack wireF) State.reset) = some (.error .tableNotBuilt) := by decide +kernel

/-! ### ACK_PARSE, ACK_IS_ACK, code 7 -/

/-- V-AD-1, V-AD-2. -/
theorem test_ackParse :
    resultOf (exec (.ackParse recordBad) State.reset) = some (.ok (.ack ⟨1, 2, 0x2A, [0x62, 0x61, 0x64]⟩))
      ∧ resultOf (exec (.ackParse (recordBad.take 261)) State.reset) = some (.error (.parseError .shortBuffer)) := by
  decide +kernel
/-- V-AD-5: an interior zero stays, error_code is little-endian. -/
theorem test_ackParse_interior_zero :
    ackParse ([2, 0, 0xEF, 0xBE, 0xAD, 0xDE, 0x61, 0, 0x62] ++ List.replicate 253 0)
      = .ok ⟨2, 0, 0xDEADBEEF, [0x61, 0, 0x62]⟩ := by decide +kernel
/-- 42_ack.md R72's worked example. -/
theorem test_ackIsAck : ackIsAck ⟨0, 0, 0, []⟩ = true ∧ ackIsAck ⟨1, 0, 0, []⟩ = false ∧ ackIsAck ⟨0x7F, 0, 0, []⟩ = false := by
  decide
/-- Program P1, step 15. -/
theorem test_reserved : resultOf (exec .reserved7 ex1) = some (.error .illegalOperation) := by decide +kernel

/-! ### The host around the block -/

/-- V-H-3's header, before its packet_crc32. -/
def headerH : DatagramHeader := ⟨5, 0, 3, 0x42, 300, 0x24C5CB8E, 0⟩

/-- V-H-3. -/
theorem test_packetCrc32 :
    (sealHeader ex1.table .zeroed20 headerH).packetCrc32 = 0x9E17B1FA
      ∧ (sealHeader ex1.table .preceding16 headerH).packetCrc32 = 0x12C1FB1D := by decide +kernel

def hostEx : HostParams := ⟨1, 128, 3, .perFrame, 1, .zeroed20⟩

/-- P4, step 7: the crc32 of the header's carrier frame. -/
theorem test_headerFrame_P4 :
    checksum ex1.table (headerBytes (sealHeader ex1.table .zeroed20 headerH)) = 0x28344DD9 := by decide +kernel
/-- R80 over V-CE-20's bytes: datagram_crc32 is the checksum of the whole source, the frames carry its chunks. -/
theorem test_datagram :
    (datagramFromBytes ex1 { hostEx with chunkSize := 4 } 5 0x42 [1, 2, 3, 4, 5]).map
        (fun d => (d.header.datagramCrc32, d.frames.map Frame.payload)) = .ok (0x45DC841C, [[1, 2, 3, 4], [5]]) := by
  decide +kernel
/-- V-H-6 and R80: 300 bytes in chunks of 128 are 128, 128 and 44. -/
theorem test_chunks :
    (List.range' 1 (chunkCount 128 (zeros 300))).map (fun i => (chunkAt 128 (zeros 300) i).length) = [128, 128, 44] := by
  decide +kernel
/-- V-H-5: the empty source. -/
theorem test_empty_source :
    (datagramFromBytes ex1 hostEx 5 0x43 []).map (fun d => (d.header.packetCrc32, d.frames)) = .ok (0x16C68267, []) := by
  decide +kernel
/-- V-SRC-6: with 3 re-sends allowed the first frame is sent 4 times. -/
theorem test_retry_bound :
    (txRun ex1 3 20 (txStart [[frameF], [frameF]] [.ack recordBad, .timeout])).written.length = 4
      ∧ (txRun ex1 3 20 (txStart [[frameF], [frameF]] [.ack recordBad, .timeout])).outcome
          = some (.failed (.retryExhausted 0x12345678 1)) := by
  decide +kernel

/-- R85, R91: a corrupted frame and a NACK are retried, and send_frame returns the Ack of the third reply. -/
theorem test_sendFrame :
    sendFrame ex1 frameF 2 [.frame (wireF.set 9 0), .ack recordBad, .ack (List.replicate 262 0)] = .ok Ack.empty
      ∧ sendFrame ex1 frameF 1 [.frame (wireF.set 9 0), .ack recordBad] = .error (.retryExhausted 0x12345678 1) := by
  decide +kernel
/-- V-H-6: the first frame's ConstructionError names the datagram and the frame. -/
theorem test_build_failure :
    datagramFromBytes { ex1 with params := { Params.ex1 with maxPayloadLen := 64 } } hostEx 5 0x42 (zeros 300)
      = .error (.blockError (.constructionError .payloadTooLarge) 0x42 1) := by decide +kernel

/-! ### Witnesses: the hypotheses of each obligation can be met -/

/-- The clean acknowledgment of V-AD-4. -/
def recordAck : List Byte := List.replicate 262 0

theorem witness_ResetClearsTableValid :
    ({ ex1 with pending := [.reset] } : State).pending = .reset :: [] := by decide
theorem witness_StepRunsThePresentedOperation :
    ({ ex1 with pending := [.present ⟨3, marked⟩] } : State).pending = .present ⟨3, marked⟩ :: []
      ∧ (decode ⟨3, marked⟩).wellFormed ex1.params marked.madeUnder = true := by decide +kernel
theorem witness_StepIdles : State.reset.pending = [] := by decide
theorem witness_StepRefusesAFrame :
    decode ⟨3, { marked with frame := { frameF with sof := 0 } }⟩ = .framePack { frameF with sof := 0 }
      ∧ Frame.wellFormed State.reset.params marked.madeUnder { frameF with sof := 0 } = false := by decide +kernel
theorem witness_StepRefusesAnAck :
    decode ⟨6, { marked with ack := ⟨0, 0, 0, [0]⟩ }⟩ = .ackIsAck ⟨0, 0, 0, [0]⟩
      ∧ Ack.wellFormed ⟨0, 0, 0, [0]⟩ = false := by decide
theorem witness_EncodedOperationRuns : (Instr.framePack frameF).wellFormed State.reset.params 0x04C11DB7 = true := by
  decide +kernel

theorem witness_built_invariant (poly : Word) : Invariant (built poly) ∧ (built poly).tableValid = true :=
  ⟨⟨fun _ => rfl, rfl⟩, rfl⟩
theorem witness_BuildTableLoadsTheTable :
    exec (.buildTable 0) State.reset = .next ((State.reset.loadTable 0 (tableOf 0)).complete .none) := rfl
theorem witness_Checksum : ex1.tableValid = true ∧ State.reset.tableValid = false := by decide
theorem witness_ZeroPaddingIsInvisible : (([1] : List Byte).length + 3) % 4 = 0 ∧ 3 < 4 := by decide
theorem witness_FourOnesBytes (poly : Word) :
    exec (.buildTable poly) State.reset = .next ((State.reset.loadTable poly (tableOf poly)).complete .none) := rfl
theorem witness_ZeroPolynomial : ([0] : List Byte) ≠ [] := by decide
theorem witness_OneByteChangeIsSeen :
    (0x04C11DB7 : Word).getLsbD 0 = true ∧ 0 < [(1 : Byte)].length ∧ byteAt [1] 0 ≠ 0 := by decide

theorem witness_FrameNew_errors :
    255 < 256 ∧ 0xFFFFFFFF < 0x100000000 ∧ 2 ^ seq3.params.seqBits.bits ≤ 8 ∧ 2 ^ ex1.params.seqBits.bits ≤ 256
      ∧ ex1.params.maxPayloadLen.val < (zeros 129).length := by decide +kernel
theorem witness_FrameNew_inRange :
    inRange ex1.params 255 0xFFFFFFFF 255 (zeros 128) ∧ inRange seq3.params 0 0 7 [] ∧ State.reset.tableValid = false
      ∧ inRange State.reset.params 1 1 1 [] := by
  unfold inRange; decide +kernel
theorem witness_FramePack :
    frameShape ex1.params frameF = true ∧ frameShape ex1.params (Frame.empty ex1.params) = true := by decide
theorem witness_OnlyFrameValues_packed :
    decode ⟨3, marked⟩ = .framePack frameF ∧ frameInvariant ex1.params (tableOf marked.madeUnder) frameF = true := by
  decide +kernel
theorem witness_OnlyFrameValues_stale :
    decode ⟨3, { marked with frame := { frameF with payload := [0, 2, 3, 4, 5] } }⟩
        = .framePack { frameF with payload := [0, 2, 3, 4, 5] }
      ∧ frameInvariant ex1.params (tableOf marked.madeUnder) { frameF with payload := [0, 2, 3, 4, 5] } = false
      ∧ checksum (tableOf marked.madeUnder) [0, 2, 3, 4, 5] ≠ checksum (tableOf marked.madeUnder) frameF.payload := by
  decide +kernel
theorem witness_OnlyFrameValues_ones :
    decode ⟨3, { marked with frame := { frameF with payload := [0xFF, 0xFF, 0xFF, 0xFF] } }⟩
        = .framePack { frameF with payload := [0xFF, 0xFF, 0xFF, 0xFF] }
      ∧ frameF.crc32 ≠ 0xFFFFFFFF := by decide
theorem witness_AnsweredFrames :
    Invariant ex1 ∧ resultOf (exec (.frameNew 1 0x12345678 1 [1, 2, 3, 4, 5]) ex1) = some (.ok (.frame frameF))
      ∧ State.reset.params = ex1.params :=
  ⟨⟨fun _ => rfl, rfl⟩, by decide +kernel, rfl⟩
theorem witness_Unpack_short : wireF.length - 6 < 14 ∧ 14 ≤ (framePack (Frame.empty Params.ex1)).length := by decide
theorem witness_Unpack_badSOF : 14 ≤ (wireF.set 0 0xAB).length ∧ byteAt (wireF.set 0 0xAB) 0 ≠ ex1.params.sofValue := by
  decide
theorem witness_Unpack_lengthField :
    byteAt (wireF.set 7 0x81) 0 = ex1.params.sofValue ∧ ex1.params.maxPayloadLen.val < memRead (wireF.set 7 0x81) 7 2 := by
  decide
theorem witness_Unpack_shortFrame :
    memRead (wireF.take 18) 7 2 ≤ ex1.params.maxPayloadLen.val ∧ (wireF.take 18).length < 14 + memRead (wireF.take 18) 7 2
      ∧ byteAt (wireF.take 18) 0 = ex1.params.sofValue := by decide
theorem witness_Unpack_trailing :
    headerFits rejecting.params (wireF ++ [0x99]) ∧ rejecting.params.trailing = .reject
      ∧ 14 + memRead (wireF ++ [0x99]) 7 2 < (wireF ++ [0x99]).length := by
  unfold headerFits; decide
theorem witness_Unpack_badEOF :
    headerFits ex1.params (wireF.set 18 0xBA) ∧ ex1.params.trailing ≠ .reject
      ∧ byteAt (wireF.set 18 0xBA) (13 + memRead (wireF.set 18 0xBA) 7 2) ≠ ex1.params.eofValue := by
  unfold headerFits; decide
theorem witness_Unpack_sequence :
    headerFits seq3.params (wireF.set 6 8) ∧ seq3.params.trailing ≠ .reject
      ∧ byteAt (wireF.set 6 8) (13 + memRead (wireF.set 6 8) 7 2) = seq3.params.eofValue
      ∧ 2 ^ seq3.params.seqBits.bits ≤ (byteAt (wireF.set 6 8) 6).toNat := by
  unfold headerFits; decide
theorem witness_Unpack_wellFramed :
    wellFramed ex1.params wireF ∧ wellFramed State.reset.params wireF ∧ wellFramed seq3.params (wireF.set 6 7)
      ∧ wellFramed rejecting.params wireF := by
  unfold wellFramed headerFits; decide
theorem witness_Unpack_checksum :
    (checksum ex1.table (slice wireF 9 (9 + memRead wireF 7 2))).toNat = memRead wireF (9 + memRead wireF 7 2) 4
      ∧ (checksum ex1.table (slice (wireF.set 9 0) 9 14)).toNat ≠ memRead (wireF.set 9 0) 14 4
      ∧ wellFramed ex1.params (wireF.set 9 0) := by
  unfold wellFramed headerFits; decide +kernel
theorem witness_FrameRoundTrip : frameInvariant ex1.params ex1.table frameF = true ∧ ex1.tableValid = true := by
  decide +kernel
/-- For UnpackedFramePacksToItsBytes and FrameValuesMeetTheInvariant. -/
theorem witness_frame_answered :
    resultOf (exec (.frameUnpack (wireF ++ [0x99])) ex1) = some (.ok (.frame frameF)) := by decide +kernel
theorem witness_BytesAfter_ignore :
    ex1.params.trailing = .ignore ∧ 14 ≤ wireF.length ∧ 14 + memRead wireF 7 2 ≤ wireF.length := by decide
theorem witness_BytesAfter_reject :
    rejecting.params.trailing = .reject ∧ headerFits rejecting.params wireF ∧ wireF.length = 14 + memRead wireF 7 2
      ∧ ([0x99] : List Byte) ≠ [] := by
  unfold headerFits; decide
theorem witness_HeaderFields :
    frameInvariant seq3.params seq3.table frameF = true ∧ (7 : Byte).toNat < 2 ^ seq3.params.seqBits.bits := by
  decide +kernel
theorem witness_OtherTable :
    (built 0x1EDC6F41).tableValid = true ∧ frameShape (built 0x1EDC6F41).params frameF = true
      ∧ checksum (built 0x1EDC6F41).table frameF.payload ≠ frameF.crc32 := by decide +kernel

theorem witness_AckParse : recordBad.length = 262 ∧ (recordBad.take 261).length < 262 := by decide +kernel
theorem witness_AckIsAck : (Ack.empty).ackStatus = 0 ∧ (⟨1, 0, 0, []⟩ : Ack).ackStatus ≠ 0 := by decide
theorem witness_AckClasses :
    ackClass ⟨0, 0, 0, []⟩ = .ack ∧ ackClass ⟨1, 0, 0, []⟩ = .nack ∧ ackClass ⟨2, 0, 0, []⟩ = .unknown
      ∧ ackClass ⟨255, 0, 0, []⟩ = .unknown := by decide
/-- For ErrorsChangeNothing and, with witness_FrameNew_inRange and witness_Unpack_wellFramed, UnbuiltTableGivesNoValue. -/
theorem witness_error_answered :
    resultOf (exec (.checksum []) State.reset) = some (.error .tableNotBuilt) := by decide
/-- For OnlyBuildTableAndResetWriteRegisters and ParametersNeverChange. -/
theorem witness_step_answers : step State.reset = .next State.reset := rfl
theorem witness_BootedRun :
    ex1.tableValid = true
      ∧ ∀ e ∈ [HostEvent.present ⟨3, marked⟩, HostEvent.present ⟨2, marked⟩],
          ∃ c, e = .present c ∧ (decode c).wellFormed ex1.params c.ports.madeUnder = true ∧ decode c ≠ .reserved7 :=
  ⟨rfl, fun e he => by
    simp only [List.mem_cons, List.not_mem_nil, or_false] at he
    rcases he with rfl | rfl
    · exact ⟨⟨3, marked⟩, rfl, by decide +kernel, by decide⟩
    · exact ⟨⟨2, marked⟩, rfl, by decide, by decide⟩⟩
theorem witness_Results : ex1.params = ({ ex1 with poly := 0, result := some (.ok .none) } : State).params := by decide
theorem witness_PackAndAck : ∃ f, Instr.framePack frameF = .framePack f := ⟨frameF, rfl⟩
theorem witness_EveryStep : Invariant State.reset ∧ step State.reset = .next State.reset :=
  ⟨⟨fun h => Bool.noConfusion h, rfl⟩, rfl⟩

theorem witness_Datagram :
    (datagramFromBytes ex1 { hostEx with chunkSize := 4 } 5 0x42 [1, 2, 3, 4, 5]).map (fun d => d.frames.length) = .ok 2 := by
  decide +kernel
theorem witness_EmptySource :
    1 ≤ hostEx.chunkSize ∧ 0x43 ≤ 0xFFFFFFFF ∧ 20 ≤ ex1.params.maxPayloadLen.val := by decide
theorem witness_OneByteOfAHeader :
    headerIntact (tableOf 0x04C11DB7) .zeroed20 (sealHeader (tableOf 0x04C11DB7) .zeroed20 headerH) = true
      ∧ headerBytes { headerH with targetNode := 6 } = (headerBytes headerH).set 0 6 ∧ byteAt (headerBytes headerH) 0 ≠ 6 := by
  decide +kernel
theorem witness_RetryBound :
    ∀ r ∈ [Reply.ack recordBad, .timeout, .frame (wireF.set 9 0), .frame wireF], onReply ex1 r = .retry := by
  decide +kernel
/-- A window that is not the datagram's first unit. -/
theorem witness_RetryBound_window :
    (⟨.idle, [[frameF, frameF], [frameF]], 0, [.timeout], [wireF], [Ack.empty], none⟩ : Transmitter).phase = .idle
      ∧ onReply ex1 .timeout = .retry := by decide
theorem witness_CleanReplies :
    [[frameF], [frameF]].length ≤ [Reply.ack recordAck, .ack recordAck].length
      ∧ ∀ r ∈ [Reply.ack recordAck, .ack recordAck], ∃ a, onReply ex1 r = .advance a :=
  ⟨by decide, fun r hr => by
    have h : r = .ack recordAck := by simpa using hr
    exact ⟨Ack.empty, by rw [h]; decide +kernel⟩⟩
theorem witness_RepliesLead :
    recordBad.length = 262 ∧ byteAt recordBad 0 ≠ 0 ∧ recordAck.length = 262 ∧ byteAt recordAck 0 = 0
      ∧ (recordAck.take 261).length < 262 := by decide +kernel
theorem witness_RepliesLead_ok :
    resultOf (exec (.frameUnpack wireF) ex1) = some (.ok (.frame frameF))
      ∧ onReply ex1 (.ack recordAck) = .advance Ack.empty := by decide +kernel
theorem witness_RepliesLead_frame :
    resultOf (exec (.frameUnpack (wireF.set 9 0)) ex1) = some (.error .checksumFailure)
      ∧ resultOf (exec (.frameUnpack (wireF.set 0 0)) ex1) = some (.error (.parseError .badSOF))
      ∧ resultOf (exec (.frameUnpack wireF) State.reset) = some (.error .tableNotBuilt) := by decide +kernel
theorem witness_EveryVerdict :
    (txStart [[frameF]] []).outcome = none
      ∧ ({ txStart [[frameF]] [] with phase := .retrying } : Transmitter).phase = .retrying
      ∧ ({ txStart [[frameF]] [] with phase := .advancing Ack.empty } : Transmitter).phase = .advancing Ack.empty
      ∧ ({ txStart [[frameF]] [] with phase := .aborted (.retryExhausted 0 0) } : Transmitter).phase
          = .aborted (.retryExhausted 0 0) := by decide
/-- A frame that is not the first, the whole-source checksum, and the header frame. -/
theorem witness_BuildFailures :
    datagramFromBytes seq3 { hostEx with chunkSize := 1 } 5 0x42 (zeros 8)
        = .error (.blockError (.constructionError .sequenceRange) 0x42 8)
      ∧ datagramFromBytes State.reset hostEx 5 0x100000000 [] = .error (.blockError .tableNotBuilt 0x100000000 0)
      ∧ datagramFromBytes ex1 hostEx 5 0x100000000 []
        = .error (.blockError (.constructionError .datagramIdRange) 0x100000000 0) := by
  decide +kernel

end Sys2Proof.Tests
end

/-! PROOFS of 30_encoding.md: the table index and one fold as numbers. -/

namespace Sys2Proof.Machine

/-- Acc[31:24] needs no reduction to 8 bits: a 32-bit word divided by 2^24 is a byte. -/
theorem topByte_toNat (acc : Word) : ((acc >>> 24).setWidth 8).toNat = acc.toNat / 2 ^ 24 := by
  have fits : acc.toNat / 2 ^ 24 < 2 ^ 8 := by omega
  rw [BitVec.toNat_setWidth, BitVec.toNat_ushiftRight, Nat.shiftRight_eq_div_pow, Nat.mod_eq_of_lt fits]

/-- TIDX of 30_encoding.md R46 as a number. -/
theorem tableIndex_toNat (acc : Word) (b : Byte) :
    (tableIndex acc b).toNat = (acc.toNat / 2 ^ 24) ^^^ b.toNat := by
  rw [tableIndex, BitVec.toNat_xor, topByte_toNat]

/-- One fold of 40_checksum.md R53 as a number. -/
theorem fold_toNat (t : Table) (acc : Word) (b : Byte) :
    (fold t acc b).toNat = (acc.toNat * 256 % 2 ^ 32) ^^^ (readEntry t (tableIndex acc b)).toNat := by
  rw [fold, BitVec.toNat_xor, BitVec.toNat_shiftLeft, Nat.shiftLeft_eq]

/-- Settles O9: the index and the fold, each read as a number. -/
theorem foldReadsTheEntryAtTheTopByte : Obligations.FoldReadsTheEntryAtTheTopByte :=
  fun t acc b => ⟨tableIndex_toNat acc b, fold_toNat t acc b⟩

end Sys2Proof.Machine

/-! PROOFS of 40_checksum.md: CHECKSUM as one fold over the bytes in feed order, and BUILD_TABLE's writes. -/

namespace Sys2Proof.Machine

open Sys2Proof.Spec

@[simp] theorem inputByte_nil (j : Nat) : inputByte [] j = 0 := rfl

@[simp] theorem inputByte_cons_zero (b : Byte) (data : List Byte) : inputByte (b :: data) 0 = b := by
  simp [inputByte, byteAt]

/-- The bytes after the first stand one position lower in the rest of the input. -/
@[simp] theorem inputByte_cons_succ (b : Byte) (data : List Byte) (j : Nat) :
    inputByte (b :: data) (j + 1) = inputByte data j := by
  simp [inputByte, byteAt]

/-- Dropping the first full group moves every later group one place down. -/
theorem groupFeed_after_group (b0 b1 b2 b3 : Byte) (rest : List Byte) (g : Nat) :
    groupFeed (b0 :: b1 :: b2 :: b3 :: rest) (g + 1) = groupFeed rest g := by
  simp [groupFeed_eq, Nat.mul_succ, Nat.add_right_comm]

theorem groupCount_add_four (n : Nat) : groupCount (n + 4) = groupCount n + 1 := by
  simp only [groupCount, Config.groupBytes]
  omega

/-- The recursion on the input and the numbered groups of R52 feed the same bytes, for every tail length of R54. -/
theorem feed_eq_flatMap_groupFeed (data : List Byte) :
    feed data = (List.range (groupCount data.length)).flatMap (groupFeed data) := by
  induction data using feed.induct with
  | case1 b0 b1 b2 b3 rest ih =>
    calc feed (b0 :: b1 :: b2 :: b3 :: rest)
        = [b3, b2, b1, b0] ++ (List.range (groupCount rest.length)).flatMap (groupFeed rest) := by
          rw [feed, ih]; rfl
      _ = (List.range (groupCount rest.length + 1)).flatMap (groupFeed (b0 :: b1 :: b2 :: b3 :: rest)) := by
          rw [List.range_succ_eq_map, List.flatMap_cons, List.flatMap_map]
          simp only [groupFeed_after_group]
          rfl
      _ = (List.range (groupCount (rest.length + 4))).flatMap (groupFeed (b0 :: b1 :: b2 :: b3 :: rest)) := by
          rw [groupCount_add_four]
  | case2 | case3 | case4 => simp [feed, groupFeed_eq, groupCount, Config.groupBytes]
  | case5 => rfl

/-- CHECKSUM's nested loops (R52) are one fold over the feed order. -/
theorem checksum_eq_foldl_feed (t : Table) (data : List Byte) :
    checksum t data = (feed data).foldl (fold t) Config.accInit ^^^ Config.xorOut := by
  rw [checksum, feed_eq_flatMap_groupFeed, List.foldl_flatMap]

/-- The model's fold and the statements' fold in numbers (R53) are one function. -/
theorem fold_eq_foldStep (t : Table) : fold t = foldStep t := by
  funext acc b
  have shift : acc <<< 8 = BitVec.ofNat 32 (acc.toNat * 256) := by
    apply BitVec.eq_of_toNat_eq
    rw [BitVec.toNat_shiftLeft, BitVec.toNat_ofNat, Nat.shiftLeft_eq]
  have index : tableIndex acc b = BitVec.ofNat 8 (acc.toNat / 2 ^ 24) ^^^ b := by
    rw [tableIndex, ← topByte_toNat, BitVec.ofNat_toNat, BitVec.setWidth_eq]
  rw [fold, foldStep, shift, index]

theorem checksum_eq_checksumOf (t : Table) (data : List Byte) : checksum t data = checksumOf t data := by
  rw [checksum_eq_foldl_feed, fold_eq_foldStep]
  rfl

theorem exec_checksum (data : List Byte) (s : State) :
    exec (.checksum data) s = .next (s.answer ((checksumNow s data).map .word)) := rfl

/-- Settles O11: the answer of CHECKSUM by TABLE_VALID, the value read as the fold over the feed order. -/
theorem checksumFeedsGroupsBackwards : Obligations.ChecksumFeedsGroupsBackwards := by
  constructor
  · intro s data built
    rw [exec_checksum, checksumNow_of_valid s data built, checksum_eq_checksumOf]
    rfl
  · intro s data unbuilt
    rw [exec_checksum, checksumNow_of_not_valid s data unbuilt]
    rfl

theorem exec_buildTable (poly : Word) (s : State) :
    exec (.buildTable poly) s = .next ((s.loadTable poly (tableOf poly)).complete .none) := rfl

/-- With no generator to exclusive-or in, the steps of R51 are plain shifts. -/
theorem iterate_entryStep_zero (n : Nat) (c : Word) : (entryStep 0)^[n] c = c <<< n := by
  induction n with
  | zero => simp
  | succ n ih =>
    have plain : ∀ d : Word, entryStep 0 d = d <<< 1 := fun d => by simp [entryStep]
    rw [Function.iterate_succ_apply', ih, plain, BitVec.shiftLeft_add]

/-- Corner case (c) of R50: 24 + 8 shifts leave nothing of the index. -/
theorem crcEntry_zero_poly (i : Byte) : crcEntry 0 i = 0 := by
  rw [crcEntry, iterate_entryStep_zero, ← BitVec.shiftLeft_add]
  exact BitVec.shiftLeft_eq_zero le_rfl

/-- Corner case (d) of R50: loading the table of the polynomial in force writes what the registers hold. -/
theorem loadTable_in_force (s : State) (inv : Invariant s) (built : s.tableValid = true) :
    s.loadTable s.poly (tableOf s.poly) = s := by
  rw [← inv.tableOfPoly built, State.loadTable, ← built]

/-- Settles O7: the writes and the frame of BUILD_TABLE, the zero polynomial, and the polynomial in force. -/
theorem buildTableLoadsTheTable : Obligations.BuildTableLoadsTheTable := by
  refine ⟨fun poly s => ⟨tableOf poly, readEntry_tableOf poly, exec_buildTable poly s⟩, ?_, ?_⟩
  · intro s t ran i
    rw [exec_buildTable] at ran
    injection ran with ran
    rw [← ran, State.complete_table, State.loadTable_table, readEntry_tableOf, crcEntry_zero_poly]
  · intro s inv built
    rw [exec_buildTable, loadTable_in_force s inv built]
    rfl

end Sys2Proof.Machine

/-! PROOFS of 41_frame.md: the wire layout of FRAME_PACK, the checks of FRAME_NEW and FRAME_UNPACK in order, and the
bytes after a frame. -/

namespace Sys2Proof.Machine

open Sys2Proof.Spec

/-! ### FRAME_PACK: header, payload, trailer (R62) -/

theorem exec_framePack (f : Frame) (s : State) :
    exec (.framePack f) s = .next (s.complete (.bytes (framePack f))) := rfl

/-- The nine bytes before the payload, at the fixed offsets of 30_encoding.md R41. -/
def frameHeader (f : Frame) : List Byte :=
  [f.sof, f.frameType] ++ leBytes 4 f.datagramId.toNat ++ [f.sequenceNum] ++ leBytes 2 f.payloadLen.toNat

/-- The five bytes after the payload. -/
def frameTrailer (f : Frame) : List Byte :=
  leBytes 4 f.crc32.toNat ++ [f.eof]

theorem framePack_eq_parts (f : Frame) : framePack f = frameHeader f ++ f.payload ++ frameTrailer f := by
  simp [framePack, frameHeader, frameTrailer]

@[simp] theorem frameHeader_length (f : Frame) : (frameHeader f).length = 9 := rfl

theorem frameHeader_payload_length (f : Frame) : (frameHeader f ++ f.payload).length = 9 + f.payload.length := by
  simp

theorem leValue_leBytes_of_lt {n v : Nat} (fits : v < 256 ^ n) : leValue (leBytes n v) = v := by
  rw [leValue_leBytes, Nat.mod_eq_of_lt fits]

/-- A field read that starts at or after the second part of a concatenation. -/
theorem memRead_append_right (x y : List Byte) (off n : Nat) (h : x.length ≤ off) :
    memRead (x ++ y) off n = memRead y (off - x.length) n := by
  rw [memRead, slice_append_right x y _ _ h, memRead, Nat.sub_add_comm h]

@[simp] theorem byteAt_framePack_sof (f : Frame) : byteAt (framePack f) 0 = f.sof := rfl

@[simp] theorem byteAt_framePack_frameType (f : Frame) : byteAt (framePack f) 1 = f.frameType := rfl

@[simp] theorem byteAt_framePack_sequenceNum (f : Frame) : byteAt (framePack f) 6 = f.sequenceNum := rfl

@[simp] theorem memRead_framePack_datagramId (f : Frame) : memRead (framePack f) 2 4 = f.datagramId.toNat := by
  have field : memRead (framePack f) 2 4 = leValue (leBytes 4 f.datagramId.toNat) := rfl
  rw [field, leValue_leBytes_of_lt f.datagramId.isLt]

@[simp] theorem memRead_framePack_payloadLen (f : Frame) : memRead (framePack f) 7 2 = f.payloadLen.toNat := by
  have field : memRead (framePack f) 7 2 = leValue (leBytes 2 f.payloadLen.toNat) := rfl
  rw [field, leValue_leBytes_of_lt f.payloadLen.isLt]

@[simp] theorem slice_framePack_payload (f : Frame) :
    slice (framePack f) 9 (9 + f.payload.length) = f.payload := by
  rw [framePack_eq_parts]
  exact slice_middle (frameHeader f) f.payload (frameTrailer f)

@[simp] theorem memRead_framePack_crc32 (f : Frame) :
    memRead (framePack f) (9 + f.payload.length) 4 = f.crc32.toNat := by
  rw [framePack_eq_parts, memRead_append_right _ _ _ _ (frameHeader_payload_length f).le, frameHeader_payload_length,
    Nat.sub_self]
  have field : memRead (frameTrailer f) 0 4 = leValue (leBytes 4 f.crc32.toNat) := rfl
  rw [field, leValue_leBytes_of_lt f.crc32.isLt]

@[simp] theorem byteAt_framePack_eof (f : Frame) : byteAt (framePack f) (13 + f.payload.length) = f.eof := by
  have offset : 13 + f.payload.length - (9 + f.payload.length) = 4 := by omega
  rw [framePack_eq_parts, byteAt_append_right _ _ _ (by rw [frameHeader_payload_length]; omega),
    frameHeader_payload_length, offset]
  rfl

/-- Settles O18: the packed bytes, read field by field; the shape gives payload_len as the length of the payload. -/
theorem framePackLaysOutTheFrame : Obligations.FramePackLaysOutTheFrame := by
  intro s f shape
  obtain ⟨-, -, len, -, -⟩ := (frameShape_iff s.params f).mp shape
  refine ⟨framePack f, exec_framePack f s, ?_⟩
  simp [len, framePack_length]

/-! ### FRAME_NEW: the checks in operand order (R60, R61) -/

theorem exec_frameNew (ty id sq : Nat) (payload : List Byte) (s : State) :
    exec (.frameNew ty id sq payload) s = .next (s.answer ((frameNew s ty id sq payload).map .frame)) := rfl

theorem exec_frameNew_of_error {s : State} {ty id sq : Nat} {payload : List Byte} {e : Error}
    (h : frameNew s ty id sq payload = .error e) :
    exec (.frameNew ty id sq payload) s = .next (s.raise e) := by
  rw [exec_frameNew, h]
  rfl

theorem exec_frameNew_of_ok {s : State} {ty id sq : Nat} {payload : List Byte} {f : Frame}
    (h : frameNew s ty id sq payload = .ok f) :
    exec (.frameNew ty id sq payload) s = .next (s.complete (.frame f)) := by
  rw [exec_frameNew, h]
  rfl

section
variable {s : State} {ty id sq : Nat} {payload : List Byte}

theorem frameNew_frameTypeRange (tyBad : 255 < ty) :
    frameNew s ty id sq payload = .error (.constructionError .frameTypeRange) :=
  if_pos tyBad

theorem frameNew_datagramIdRange (tyOk : ty ≤ 255) (idBad : 0xFFFFFFFF < id) :
    frameNew s ty id sq payload = .error (.constructionError .datagramIdRange) := by
  rw [frameNew, if_neg tyOk.not_gt, if_pos idBad]

theorem frameNew_sequenceRange (tyOk : ty ≤ 255) (idOk : id ≤ 0xFFFFFFFF) (sqBad : 2 ^ s.params.seqBits.bits ≤ sq) :
    frameNew s ty id sq payload = .error (.constructionError .sequenceRange) := by
  rw [frameNew, if_neg tyOk.not_gt, if_neg idOk.not_gt, if_pos sqBad]

theorem frameNew_payloadTooLarge (tyOk : ty ≤ 255) (idOk : id ≤ 0xFFFFFFFF) (sqOk : sq < 2 ^ s.params.seqBits.bits)
    (tooLong : s.params.maxPayloadLen.val < payload.length) :
    frameNew s ty id sq payload = .error (.constructionError .payloadTooLarge) := by
  rw [frameNew, if_neg tyOk.not_gt, if_neg idOk.not_gt, if_neg sqOk.not_ge, if_pos tooLong]

/-- In range, only the table decides. -/
theorem frameNew_of_inRange (ok : inRange s.params ty id sq payload) :
    frameNew s ty id sq payload =
      if s.tableValid = false then .error .tableNotBuilt
      else .ok ⟨s.params.sofValue, BitVec.ofNat 8 ty, BitVec.ofNat 32 id, BitVec.ofNat 8 sq,
        BitVec.ofNat 16 payload.length, payload, checksum s.table payload, s.params.eofValue⟩ := by
  obtain ⟨tyOk, idOk, sqOk, lenOk⟩ := ok
  rw [frameNew, if_neg tyOk.not_gt, if_neg idOk.not_gt, if_neg sqOk.not_ge, if_neg lenOk.not_gt]

theorem frameNew_tableNotBuilt (ok : inRange s.params ty id sq payload) (unbuilt : s.tableValid = false) :
    frameNew s ty id sq payload = .error .tableNotBuilt := by
  rw [frameNew_of_inRange ok, if_pos unbuilt]

theorem frameNew_makes_frame (ok : inRange s.params ty id sq payload) (built : s.tableValid = true) :
    frameNew s ty id sq payload =
      .ok ⟨s.params.sofValue, BitVec.ofNat 8 ty, BitVec.ofNat 32 id, BitVec.ofNat 8 sq,
        BitVec.ofNat 16 payload.length, payload, checksum s.table payload, s.params.eofValue⟩ := by
  rw [frameNew_of_inRange ok, if_neg (by simp [built])]

end

/-- A sequence number of either variant is a byte (R61 (c)). -/
theorem seqBits_pow_le (b : SeqBits) : 2 ^ b.bits ≤ 256 := by
  cases b <;> decide

/-- Settles O17: one clause for each check, and the operands in range as they stand in the Frame's fields. -/
theorem frameNewChecksThenMakesTheFrame : Obligations.FrameNewChecksThenMakesTheFrame := by
  intro s ty id sq payload
  refine ⟨fun tyBad => exec_frameNew_of_error (frameNew_frameTypeRange tyBad),
    fun tyOk idBad => exec_frameNew_of_error (frameNew_datagramIdRange tyOk idBad),
    fun tyOk idOk sqBad => exec_frameNew_of_error (frameNew_sequenceRange tyOk idOk sqBad),
    fun tyOk idOk sqOk tooLong => exec_frameNew_of_error (frameNew_payloadTooLarge tyOk idOk sqOk tooLong),
    fun ok unbuilt => exec_frameNew_of_error (frameNew_tableNotBuilt ok unbuilt), fun ok built => ?_⟩
  obtain ⟨tyOk, idOk, sqOk, lenOk⟩ := ok
  have sqByte : sq < 256 := sqOk.trans_le (seqBits_pow_le s.params.seqBits)
  have lenFits : payload.length < 65536 := lenOk.trans_lt s.params.maxPayloadLen.isLt
  refine ⟨_, exec_frameNew_of_ok (frameNew_makes_frame ⟨tyOk, idOk, sqOk, lenOk⟩ built),
    rfl, ?_, ?_, ?_, ?_, rfl, rfl, rfl⟩
  · exact Nat.mod_eq_of_lt (by omega)
  · exact Nat.mod_eq_of_lt (by omega)
  · exact Nat.mod_eq_of_lt sqByte
  · exact Nat.mod_eq_of_lt lenFits

/-! ### FRAME_UNPACK: steps 1 to 9 (R63, R64) -/

theorem exec_frameUnpack (b : List Byte) (s : State) :
    exec (.frameUnpack b) s = .next (s.answer ((frameUnpack s b).map .frame)) := rfl

theorem exec_frameUnpack_of_error {s : State} {b : List Byte} {e : Error} (h : frameUnpack s b = .error e) :
    exec (.frameUnpack b) s = .next (s.raise e) := by
  rw [exec_frameUnpack, h]
  rfl

theorem exec_frameUnpack_of_ok {s : State} {b : List Byte} {f : Frame} (h : frameUnpack s b = .ok f) :
    exec (.frameUnpack b) s = .next (s.complete (.frame f)) := by
  rw [exec_frameUnpack, h]
  rfl

/-- The Frame whose fields stand in the buffer at the offsets of 30_encoding.md R41. -/
def frameInBuffer (b : List Byte) : Frame :=
  { sof := byteAt b 0
    frameType := byteAt b 1
    datagramId := BitVec.ofNat 32 (memRead b 2 4)
    sequenceNum := byteAt b 6
    payloadLen := BitVec.ofNat 16 (memRead b 7 2)
    payload := slice b 9 (9 + memRead b 7 2)
    crc32 := BitVec.ofNat 32 (memRead b (9 + memRead b 7 2) 4)
    eof := byteAt b (13 + memRead b 7 2) }

/-- A number read from n bytes fits the field of their width. -/
theorem toNat_ofNat_memRead (b : List Byte) (off : Nat) {n w : Nat} (width : 256 ^ n = 2 ^ w) :
    (BitVec.ofNat w (memRead b off n)).toNat = memRead b off n := by
  rw [BitVec.toNat_ofNat, Nat.mod_eq_of_lt (width ▸ memRead_lt b off n)]

theorem frameInBuffer_datagramId (b : List Byte) : (frameInBuffer b).datagramId.toNat = memRead b 2 4 :=
  toNat_ofNat_memRead b 2 rfl

theorem frameInBuffer_payloadLen (b : List Byte) : (frameInBuffer b).payloadLen.toNat = memRead b 7 2 :=
  toNat_ofNat_memRead b 7 rfl

theorem frameInBuffer_crc32 (b : List Byte) :
    (frameInBuffer b).crc32.toNat = memRead b (9 + memRead b 7 2) 4 :=
  toNat_ofNat_memRead b _ rfl

section
variable {s : State} {b : List Byte}

theorem frameUnpack_shorter_than_overhead (short : b.length < 14) :
    frameUnpack s b = .error (.parseError .shortBuffer) :=
  if_pos short

theorem frameUnpack_badSOF (long : 14 ≤ b.length) (sofBad : byteAt b 0 ≠ s.params.sofValue) :
    frameUnpack s b = .error (.parseError .badSOF) := by
  rw [frameUnpack, Config.frameOverhead, if_neg long.not_gt, if_pos sofBad]

theorem frameUnpack_lengthField (long : 14 ≤ b.length) (sofOk : byteAt b 0 = s.params.sofValue)
    (lenBad : s.params.maxPayloadLen.val < memRead b 7 2) :
    frameUnpack s b = .error (.parseError .lengthField) := by
  rw [frameUnpack, Config.frameOverhead, if_neg long.not_gt, if_neg (not_not.mpr sofOk)]
  exact if_pos lenBad

theorem frameUnpack_shorter_than_frame (long : 14 ≤ b.length) (sofOk : byteAt b 0 = s.params.sofValue)
    (lenOk : memRead b 7 2 ≤ s.params.maxPayloadLen.val) (short : b.length < 14 + memRead b 7 2) :
    frameUnpack s b = .error (.parseError .shortBuffer) := by
  simp [frameUnpack, Config.frameOverhead, long.not_gt, sofOk, lenOk.not_gt, short]

/-- Steps 5 to 9 are what is left once the buffer holds its frame. -/
theorem frameUnpack_of_headerFits (fits : headerFits s.params b) :
    frameUnpack s b =
      if s.params.trailing = .reject ∧ 14 + memRead b 7 2 < b.length then .error (.parseError .trailingBytes)
      else if byteAt b (13 + memRead b 7 2) ≠ s.params.eofValue then .error (.parseError .badEOF)
      else if 2 ^ s.params.seqBits.bits ≤ (byteAt b 6).toNat then .error (.parseError .sequenceRange)
      else if s.tableValid = false then .error .tableNotBuilt
      else if checksum s.table (frameInBuffer b).payload ≠ (frameInBuffer b).crc32 then .error .checksumFailure
      else .ok (frameInBuffer b) := by
  obtain ⟨sofOk, lenOk, whole⟩ := fits
  have long : ¬ b.length < 14 := by omega
  rw [frameUnpack, Config.frameOverhead, if_neg long, if_neg (not_not.mpr sofOk)]
  simp only [if_neg lenOk.not_gt, if_neg whole.not_gt]
  rfl

theorem frameUnpack_trailingBytes (fits : headerFits s.params b) (reject : s.params.trailing = .reject)
    (longer : 14 + memRead b 7 2 < b.length) : frameUnpack s b = .error (.parseError .trailingBytes) := by
  rw [frameUnpack_of_headerFits fits, if_pos ⟨reject, longer⟩]

/-- Step 5 passes when a rejecting block is given a buffer that ends with its frame. -/
theorem no_trailingBytes (ends : s.params.trailing = .reject → b.length = 14 + memRead b 7 2) :
    ¬ (s.params.trailing = .reject ∧ 14 + memRead b 7 2 < b.length) :=
  fun ⟨reject, longer⟩ => longer.ne' (ends reject)

theorem frameUnpack_badEOF (fits : headerFits s.params b)
    (ends : s.params.trailing = .reject → b.length = 14 + memRead b 7 2)
    (eofBad : byteAt b (13 + memRead b 7 2) ≠ s.params.eofValue) :
    frameUnpack s b = .error (.parseError .badEOF) := by
  rw [frameUnpack_of_headerFits fits, if_neg (no_trailingBytes ends), if_pos eofBad]

theorem frameUnpack_sequenceRange (fits : headerFits s.params b)
    (ends : s.params.trailing = .reject → b.length = 14 + memRead b 7 2)
    (eofOk : byteAt b (13 + memRead b 7 2) = s.params.eofValue)
    (sqBad : 2 ^ s.params.seqBits.bits ≤ (byteAt b 6).toNat) :
    frameUnpack s b = .error (.parseError .sequenceRange) := by
  rw [frameUnpack_of_headerFits fits, if_neg (no_trailingBytes ends), if_neg (not_not.mpr eofOk), if_pos sqBad]

/-- Well framed, only the table and the checksum decide. -/
theorem frameUnpack_of_wellFramed (framed : wellFramed s.params b) :
    frameUnpack s b =
      if s.tableValid = false then .error .tableNotBuilt
      else if checksum s.table (frameInBuffer b).payload ≠ (frameInBuffer b).crc32 then .error .checksumFailure
      else .ok (frameInBuffer b) := by
  obtain ⟨fits, ends, eofOk, sqOk⟩ := framed
  rw [frameUnpack_of_headerFits fits, if_neg (no_trailingBytes ends), if_neg (not_not.mpr eofOk), if_neg sqOk.not_ge]

theorem frameUnpack_tableNotBuilt (framed : wellFramed s.params b) (unbuilt : s.tableValid = false) :
    frameUnpack s b = .error .tableNotBuilt := by
  rw [frameUnpack_of_wellFramed framed, if_pos unbuilt]

/-- The comparison of step 9 in numbers. -/
theorem checksum_eq_crc32_iff (t : Table) (b : List Byte) :
    checksum t (frameInBuffer b).payload = (frameInBuffer b).crc32 ↔
      (checksum t (slice b 9 (9 + memRead b 7 2))).toNat = memRead b (9 + memRead b 7 2) 4 := by
  rw [← frameInBuffer_crc32, BitVec.toNat_inj]
  rfl

theorem frameUnpack_checksumFailure (framed : wellFramed s.params b) (built : s.tableValid = true)
    (mismatch : checksum s.table (frameInBuffer b).payload ≠ (frameInBuffer b).crc32) :
    frameUnpack s b = .error .checksumFailure := by
  rw [frameUnpack_of_wellFramed framed, if_neg (by simp [built]), if_pos mismatch]

theorem frameUnpack_reads_frame (framed : wellFramed s.params b) (built : s.tableValid = true)
    (agree : checksum s.table (frameInBuffer b).payload = (frameInBuffer b).crc32) :
    frameUnpack s b = .ok (frameInBuffer b) := by
  rw [frameUnpack_of_wellFramed framed, if_neg (by simp [built]), if_neg (not_not.mpr agree)]

end

/-- Settles O19: one clause for each step, and the Frame that stands in the buffer. -/
theorem frameUnpackChecksInOrder : Obligations.FrameUnpackChecksInOrder := by
  intro s b
  refine ⟨fun short => exec_frameUnpack_of_error (frameUnpack_shorter_than_overhead short),
    fun long sofBad => exec_frameUnpack_of_error (frameUnpack_badSOF long sofBad),
    fun long sofOk lenBad => exec_frameUnpack_of_error (frameUnpack_lengthField long sofOk lenBad),
    fun long sofOk lenOk short =>
      exec_frameUnpack_of_error (frameUnpack_shorter_than_frame long sofOk lenOk short),
    fun fits reject longer => exec_frameUnpack_of_error (frameUnpack_trailingBytes fits reject longer),
    fun fits ends eofBad => exec_frameUnpack_of_error (frameUnpack_badEOF fits ends eofBad),
    fun fits ends eofOk sqBad => exec_frameUnpack_of_error (frameUnpack_sequenceRange fits ends eofOk sqBad),
    fun framed unbuilt => exec_frameUnpack_of_error (frameUnpack_tableNotBuilt framed unbuilt),
    fun framed built mismatch => exec_frameUnpack_of_error
      (frameUnpack_checksumFailure framed built (mt (checksum_eq_crc32_iff s.table b).mp mismatch)),
    fun framed built agree => ?_⟩
  exact ⟨frameInBuffer b,
    exec_frameUnpack_of_ok (frameUnpack_reads_frame framed built ((checksum_eq_crc32_iff s.table b).mpr agree)),
    rfl, rfl, frameInBuffer_datagramId b, rfl, frameInBuffer_payloadLen b, rfl, frameInBuffer_crc32 b, rfl⟩

/-! ### Bytes after the frame (R65) -/

theorem memRead_lengthField_append {b : List Byte} (extra : List Byte) (long : 14 ≤ b.length) :
    memRead (b ++ extra) 7 2 = memRead b 7 2 :=
  memRead_append_left b extra 7 2 (by omega)

/-- Every field of a frame the buffer holds whole is read below its end. -/
theorem frameInBuffer_append {b : List Byte} (extra : List Byte) (whole : 14 + memRead b 7 2 ≤ b.length) :
    frameInBuffer (b ++ extra) = frameInBuffer b := by
  have len := memRead_lengthField_append extra (show 14 ≤ b.length by omega)
  simp only [frameInBuffer, len]
  rw [byteAt_append_left b extra 0 (by omega), byteAt_append_left b extra 1 (by omega),
    memRead_append_left b extra 2 4 (by omega), byteAt_append_left b extra 6 (by omega),
    slice_append_left b extra 9 _ (by omega), memRead_append_left b extra _ 4 (by omega),
    byteAt_append_left b extra _ (by omega)]

theorem headerFits_append {p : Params} {b : List Byte} (extra : List Byte) (fits : headerFits p b) :
    headerFits p (b ++ extra) := by
  obtain ⟨sofOk, lenOk, whole⟩ := fits
  rw [headerFits, memRead_lengthField_append extra (by omega), byteAt_append_left b extra 0 (by omega),
    List.length_append]
  exact ⟨sofOk, lenOk, by omega⟩

/-- With `ignore`, FRAME_UNPACK reads nothing behind a frame the buffer holds whole: steps 2 and 3 read the header, and
steps 6 to 9 read bytes of the frame. -/
theorem frameUnpack_append_of_ignore {s : State} {b : List Byte} (extra : List Byte)
    (ignore : s.params.trailing = .ignore) (whole : 14 + memRead b 7 2 ≤ b.length) :
    frameUnpack s (b ++ extra) = frameUnpack s b := by
  have long : 14 ≤ b.length := by omega
  have len := memRead_lengthField_append extra long
  have sof := byteAt_append_left b extra 0 (by omega)
  have wholeExtended : 14 + memRead (b ++ extra) 7 2 ≤ (b ++ extra).length := by
    rw [len, List.length_append]; omega
  by_cases sofOk : byteAt b 0 = s.params.sofValue
  · by_cases lenOk : memRead b 7 2 ≤ s.params.maxPayloadLen.val
    · have fits : headerFits s.params b := ⟨sofOk, lenOk, whole⟩
      have eof := byteAt_append_left b extra (13 + memRead b 7 2) (by omega)
      have sequence := byteAt_append_left b extra 6 (by omega)
      rw [frameUnpack_of_headerFits (headerFits_append extra fits), frameUnpack_of_headerFits fits,
        frameInBuffer_append extra whole, len, eof, sequence]
      simp only [ignore, reduceCtorEq, false_and, if_false]
    · rw [frameUnpack_lengthField long sofOk (not_le.mp lenOk),
        frameUnpack_lengthField (by omega) (sof.trans sofOk) (by rw [len]; exact not_le.mp lenOk)]
  · rw [frameUnpack_badSOF long sofOk, frameUnpack_badSOF (by omega) (by rw [sof]; exact sofOk)]

/-- Settles O27: with `ignore` the outcome is the frame's alone, with `reject` step 5 sees the longer buffer. -/
theorem bytesAfterTheFrame : Obligations.BytesAfterTheFrame := by
  constructor
  · intro s b extra ignore _ whole
    rw [exec_frameUnpack, exec_frameUnpack, frameUnpack_append_of_ignore extra ignore whole]
  · intro s b extra reject fits ends more
    have longer : 14 + memRead (b ++ extra) 7 2 < (b ++ extra).length := by
      have := List.length_pos_of_ne_nil more
      rw [memRead_lengthField_append extra (by omega), List.length_append]
      omega
    exact exec_frameUnpack_of_error (frameUnpack_trailingBytes (headerFits_append extra fits) reject longer)

end Sys2Proof.Machine

/-! PROOFS of 42_ack.md: trim_nul as the library's `rdropWhile`, the record ACK_PARSE reads, and the bit of
ACK_IS_ACK. -/

namespace Sys2Proof.Machine

/-! ### trim_nul (R71) -/

theorem trimNul_eq_rdropWhile (m : List Byte) : trimNul m = m.rdropWhile (· == 0) := rfl

/-- What trim_nul removes is a run of zero bytes. -/
theorem rtakeWhile_zero_eq_replicate (m : List Byte) :
    m.rtakeWhile (· == 0) = List.replicate (m.rtakeWhile (· == 0)).length 0 :=
  List.eq_replicate_length.mpr fun _ removed => eq_of_beq (List.mem_rtakeWhile_imp (p := (· == 0)) removed)

theorem trimNul_append_replicate (m : List Byte) :
    trimNul m ++ List.replicate (m.rtakeWhile (· == 0)).length 0 = m := by
  rw [← rtakeWhile_zero_eq_replicate, trimNul_eq_rdropWhile, List.rdropWhile_append_rtakeWhile]

theorem trimNul_getLast?_ne_zero (m : List Byte) : (trimNul m).getLast? ≠ some 0 := by
  intro zeroLast
  obtain ⟨nonempty, isLast⟩ := List.mem_getLast?_eq_getLast zeroLast
  exact List.rdropWhile_last_not (· == 0) m nonempty (beq_iff_eq.mpr isLast.symm)

/-- Settles O32: the kept bytes and the removed run of zeros make up m, and the kept bytes end in no zero. -/
theorem trimRemovesExactlyTheTrailingZeros : Obligations.TrimRemovesExactlyTheTrailingZeros :=
  fun m => ⟨⟨_, (trimNul_append_replicate m).symm⟩, trimNul_getLast?_ne_zero m⟩

/-! ### ACK_PARSE (R70, R74) -/

theorem exec_ackParse (b : List Byte) (s : State) :
    exec (.ackParse b) s = .next (s.answer ((ackParse b).map .ack)) := rfl

/-- The Ack whose fields stand in the buffer at the offsets of 30_encoding.md R44. -/
def ackInBuffer (b : List Byte) : Ack :=
  { ackStatus := byteAt b 0
    responseToType := byteAt b 1
    errorCode := BitVec.ofNat 32 (memRead b 2 4)
    errorMessage := trimNul (slice b 6 262) }

theorem ackInBuffer_errorCode (b : List Byte) : (ackInBuffer b).errorCode.toNat = memRead b 2 4 :=
  toNat_ofNat_memRead b 2 rfl

theorem ackParse_of_short {b : List Byte} (short : b.length < 262) :
    ackParse b = .error (.parseError .shortBuffer) :=
  if_pos short

theorem ackParse_of_long {b : List Byte} (long : 262 ≤ b.length) : ackParse b = .ok (ackInBuffer b) :=
  if_neg long.not_gt

/-- Every field of a record the buffer holds whole is read below offset 262. -/
theorem ackInBuffer_append {b : List Byte} (extra : List Byte) (long : 262 ≤ b.length) :
    ackInBuffer (b ++ extra) = ackInBuffer b := by
  rw [ackInBuffer, byteAt_append_left b extra 0 (by omega), byteAt_append_left b extra 1 (by omega),
    memRead_append_left b extra 2 4 (by omega), slice_append_left b extra 6 262 long]
  rfl

theorem ackParse_append {b : List Byte} (extra : List Byte) (long : 262 ≤ b.length) :
    ackParse (b ++ extra) = ackParse b := by
  have longExtended : 262 ≤ (b ++ extra).length := by rw [List.length_append]; omega
  rw [ackParse_of_long longExtended, ackParse_of_long long, ackInBuffer_append extra long]

/-- Settles O31: one clause below 262 bytes, one from there on, and one for the bytes behind the record. -/
theorem ackParseReadsTheRecord : Obligations.AckParseReadsTheRecord := by
  refine ⟨?_, ?_, ?_⟩
  · intro s b short
    rw [exec_ackParse, ackParse_of_short short]
    rfl
  · intro s b long
    refine ⟨ackInBuffer b, ?_, rfl, rfl, ackInBuffer_errorCode b, rfl⟩
    rw [exec_ackParse, ackParse_of_long long]
    rfl
  · intro s b extra record
    rw [exec_ackParse, exec_ackParse, ackParse_append extra record.ge]

/-! ### ACK_IS_ACK (R72) -/

theorem exec_ackIsAck (a : Ack) (s : State) : exec (.ackIsAck a) s = .next (s.complete (.bit (ackIsAck a))) := rfl

theorem ackIsAck_of_status_zero {a : Ack} (zero : a.ackStatus = 0) : ackIsAck a = true :=
  beq_iff_eq.mpr zero

theorem ackIsAck_of_status_ne_zero {a : Ack} (nonzero : a.ackStatus ≠ 0) : ackIsAck a = false :=
  beq_eq_false_iff_ne.mpr nonzero

/-- Settles O33: the bit by the status, in a state that changes in nothing but the result. -/
theorem ackIsAckOnlyForStatusZero : Obligations.AckIsAckOnlyForStatusZero := by
  constructor
  · intro s a zero
    rw [exec_ackIsAck, ackIsAck_of_status_zero zero]
    rfl
  · intro s a nonzero
    rw [exec_ackIsAck, ackIsAck_of_status_ne_zero nonzero]
    rfl

end Sys2Proof.Machine

/-! PROOFS of 43_host_contract.md: the payload frames of a datagram, the chunks they carry, and the counts and checksum
of its header. -/

namespace Sys2Proof.Machine

/-! ### The chunks of a source (R80) -/

/-- The end of a chunk needs no cut at the end of the source: `take` makes it. -/
theorem chunkAt_succ (c : Nat) (source : List Byte) (k : Nat) :
    chunkAt c source (k + 1) = (source.take ((k + 1) * c)).drop (k * c) := by
  rw [chunkAt, slice, List.take_eq_take_min (i := (k + 1) * c), Nat.add_sub_cancel]

/-- The first k chunks together are the first k * c bytes. -/
theorem flatten_chunks_eq_take (c : Nat) (source : List Byte) (k : Nat) :
    ((List.range' 1 k).map (chunkAt c source)).flatten = source.take (k * c) := by
  induction k with
  | zero => simp
  | succ k ih =>
    have firstBytes : source.take (k * c) = (source.take ((k + 1) * c)).take (k * c) := by
      rw [List.take_take, Nat.min_eq_left (Nat.mul_le_mul_right c k.le_succ)]
    calc ((List.range' 1 (k + 1)).map (chunkAt c source)).flatten
        = source.take (k * c) ++ chunkAt c source (k + 1) := by
          rw [List.range'_1_concat, List.map_append, List.flatten_append, ih, Nat.add_comm 1 k]
          simp
      _ = source.take ((k + 1) * c) := by
          rw [chunkAt_succ, firstBytes, List.take_append_drop]

/-- ceil(n / c) chunks of c bytes reach the end of the source. -/
theorem length_le_chunkCount_mul {c : Nat} (pos : 1 ≤ c) (source : List Byte) :
    source.length ≤ chunkCount c source * c := by
  have rounded := Nat.lt_div_mul_add (a := source.length + c - 1) pos
  rw [chunkCount]
  omega

/-- All chunks together are the source. -/
theorem flatten_chunks {c : Nat} (pos : 1 ≤ c) (source : List Byte) :
    ((List.range' 1 (chunkCount c source)).map (chunkAt c source)).flatten = source := by
  rw [flatten_chunks_eq_take, List.take_of_length_le (length_le_chunkCount_mul pos source)]

/-! ### The frames of a datagram (R80) -/

section
variable {s : State} {ty id sq : Nat} {payload : List Byte} {f : Frame}

theorem frameNew_ok_payload (h : frameNew s ty id sq payload = .ok f) : f.payload = payload := by
  obtain ⟨-, -, -, -, -, rfl⟩ := frameNew_ok s ty id sq payload f h
  rfl

/-- MAX_PAYLOAD_LEN fits in 16 bits, so a length that passed FRAME_NEW's check does too. -/
theorem frameNew_ok_payloadLen (h : frameNew s ty id sq payload = .ok f) : f.payloadLen.toNat = payload.length := by
  obtain ⟨-, -, -, lenOk, -, rfl⟩ := frameNew_ok s ty id sq payload f h
  exact Nat.mod_eq_of_lt (lenOk.trans_lt s.params.maxPayloadLen.isLt)

/-- A number that passed FRAME_NEW's check is a byte, under either SEQ_BITS. -/
theorem frameNew_ok_sequenceNum (h : frameNew s ty id sq payload = .ok f) : f.sequenceNum.toNat = sq := by
  obtain ⟨-, -, sqOk, -, -, rfl⟩ := frameNew_ok s ty id sq payload f h
  exact Nat.mod_eq_of_lt (sqOk.trans_le (seqBits_pow_le s.params.seqBits))

end

theorem hostFrameNew_ok {s : State} {ty id sq : Nat} {payload : List Byte} {f : Frame}
    (h : hostFrameNew s ty id sq payload = .ok f) : frameNew s ty id sq payload = .ok f := by
  unfold hostFrameNew at h
  split at h
  · cases h
  · next made => rwa [Except.ok.inj h] at made

theorem checksumNow_ok {s : State} {data : List Byte} {crc : Word} (h : checksumNow s data = .ok crc) :
    crc = checksum s.table data := by
  cases built : s.tableValid
  · rw [checksumNow_of_not_valid s data built] at h
    cases h
  · rw [checksumNow_of_valid s data built] at h
    exact (Except.ok.inj h).symm

/-- Each sequence number has its Frame, in order, made by FRAME_NEW from its chunk. -/
theorem payloadFrames_ok {s : State} {hp : HostParams} {id : Nat} {source : List Byte} {is : List Nat}
    {fs : List Frame} (h : payloadFrames s hp id source is = .ok fs) :
    List.Forall₂ (fun i f => frameNew s hp.frameTypePayload.toNat id i (chunkAt hp.chunkSize source i) = .ok f)
      is fs := by
  induction is generalizing fs with
  | nil =>
    cases h
    exact .nil
  | cons i is ih =>
    unfold payloadFrames at h
    split at h
    · cases h
    · next f made =>
      split at h
      · cases h
      · next rest others =>
        cases h
        exact .cons (hostFrameNew_ok made) (ih others)

/-- If a datagram is built, its frames are those of the numbers 1 to the chunk count, and its header is the one of their
number and of the checksum of the source. -/
theorem datagramFromBytes_ok {s : State} {hp : HostParams} {target : Byte} {id : Nat} {source : List Byte}
    {d : Datagram} (h : datagramFromBytes s hp target id source = .ok d) :
    payloadFrames s hp id source (List.range' 1 (chunkCount hp.chunkSize source)) = .ok d.frames
      ∧ d.header = datagramHeader s hp target id source d.frames.length (checksum s.table source) := by
  unfold datagramFromBytes at h
  split at h
  · cases h
  · next frames made =>
    split at h
    · cases h
    · next crc summed =>
      dsimp only at h
      split at h
      · cases h
      · cases h
        exact ⟨made, by rw [checksumNow_ok summed]⟩

section
variable {s : State} {hp : HostParams} {id : Nat} {source : List Byte} {is : List Nat} {fs : List Frame}

/-- What FRAME_NEW carries from each number into its Frame, the list of Frames carries from the list of numbers. -/
theorem payloadFrames_map_eq {α : Type} {field : Frame → α} {operand : Nat → α}
    (h : payloadFrames s hp id source is = .ok fs)
    (carried : ∀ i f, frameNew s hp.frameTypePayload.toNat id i (chunkAt hp.chunkSize source i) = .ok f →
      field f = operand i) :
    fs.map field = is.map operand := by
  have fieldwise : List.Forall₂ (· = ·) (is.map operand) (fs.map field) :=
    List.rel_map (fun i f made => (carried i f made).symm) (payloadFrames_ok h)
  rw [List.forall₂_eq_eq_eq] at fieldwise
  exact fieldwise.symm

theorem payloadFrames_payloads (h : payloadFrames s hp id source is = .ok fs) :
    fs.map Frame.payload = is.map (chunkAt hp.chunkSize source) :=
  payloadFrames_map_eq h fun _ _ made => frameNew_ok_payload made

theorem payloadFrames_payloadLens (h : payloadFrames s hp id source is = .ok fs) :
    fs.map (fun f => f.payloadLen.toNat) = (fs.map Frame.payload).map List.length := by
  rw [payloadFrames_payloads h, List.map_map]
  exact payloadFrames_map_eq h fun _ _ made => frameNew_ok_payloadLen made

theorem payloadFrames_sequenceNums (h : payloadFrames s hp id source is = .ok fs) :
    fs.map (fun f => f.sequenceNum.toNat) = is := by
  rw [payloadFrames_map_eq h fun _ _ made => frameNew_ok_sequenceNum made, List.map_id']

end

/-! ### The counts of the header (R82) -/

/-- Frames numbered from 1 are fewer than 256, since the last number is a byte. -/
theorem length_lt_of_sequenceNums {fs : List Frame}
    (numbered : fs.map (fun f => f.sequenceNum.toNat) = List.range' 1 fs.length) : fs.length < 256 := by
  rcases Nat.eq_zero_or_pos fs.length with empty | nonempty
  · omega
  · have last : fs.length ∈ fs.map (fun f => f.sequenceNum.toNat) := by
      rw [numbered, List.mem_range'_1]
      omega
    obtain ⟨f, -, number⟩ := List.mem_map.mp last
    rw [← number]
    exact f.sequenceNum.isLt

/-- A payload_len is 16 bits. -/
theorem sum_payloadLens_le (fs : List Frame) :
    (fs.map fun f => f.payloadLen.toNat).sum ≤ fs.length * 65536 := by
  have each : ∀ n ∈ fs.map (fun f => f.payloadLen.toNat), n ≤ 65536 := by
    intro n mem
    obtain ⟨f, -, rfl⟩ := List.mem_map.mp mem
    exact f.payloadLen.isLt.le
  simpa using List.sum_le_card_nsmul _ 65536 each

/-- Settles O46: the payloads are the chunks of the source, and the sequence numbers bound both counts, so neither wraps
in the header's 16 and 32 bits. -/
theorem datagramPayloadsAreTheSource : Obligations.DatagramPayloadsAreTheSource := by
  intro s hp target id source d pos built
  obtain ⟨made, header⟩ := datagramFromBytes_ok built
  have payloads : (d.frames.map Frame.payload).flatten = source := by
    rw [payloadFrames_payloads made, flatten_chunks pos source]
  have numbers : d.frames.map (fun f => f.sequenceNum.toNat) = List.range' 1 d.frames.length := by
    rw [payloadFrames_sequenceNums made, ← (payloadFrames_ok made).length_eq, List.length_range']
  have total : source.length = (d.frames.map fun f => f.payloadLen.toNat).sum := by
    rw [payloadFrames_payloadLens made, ← List.length_flatten, payloads]
  have few : d.frames.length < 256 := length_lt_of_sequenceNums numbers
  have lens := sum_payloadLens_le d.frames
  refine ⟨payloads, ?_, ?_, ?_, numbers⟩
  · rw [header]
    exact Nat.mod_eq_of_lt (by omega)
  · rw [header, ← total]
    exact Nat.mod_eq_of_lt (by omega)
  · rw [header, payloads]
    rfl

end Sys2Proof.Machine

/-! PROOFS of 60_exceptions.md: what an error leaves, the values each operation can answer OK with, and the reserved
code. -/

namespace Sys2Proof.Machine

open Sys2Proof.Spec

/-! ### An error leaves only its result (R101, R102) -/

theorem exec_answers (i : Instr) (s : State) : ∃ t, exec i s = .next t := by
  cases i <;> exact ⟨_, rfl⟩

theorem State.answer_result_update (r : Option Result) (a : Except Error Value) (s : State) :
    State.answer a { s with result := r } = s.answer a := by
  cases a <;> rfl

/-- No operation reads an earlier result (10_state.md R18). -/
theorem exec_result_update (i : Instr) (s : State) (r : Option Result) : exec i { s with result := r } = exec i s := by
  cases i with
  | buildTable | framePack | ackIsAck | reserved7 => rfl
  | checksum | frameNew | frameUnpack | ackParse => exact congrArg Host.Outcome.next (State.answer_result_update r _ s)

/-- An operation that answers an error raised it in the state it started in: BUILD_TABLE, the one that writes, answers
OK. -/
theorem exec_error {i : Instr} {s t : State} {e : Error} (ran : exec i s = .next t)
    (err : t.result = some (.error e)) : t = s.raise e := by
  obtain ⟨poly, -, rfl⟩ | ⟨-, raised | v, rfl⟩ := exec_cases i s t ran
  · cases err
  · cases err
    rfl
  · cases err

/-- Settles O38: the operation answers, an error is raised in the state before, and that state's result is not read. -/
theorem errorsChangeNothing : Obligations.ErrorsChangeNothing := by
  intro i s
  obtain ⟨t, ran⟩ := exec_answers i s
  refine ⟨t, ran, fun e err => ?_⟩
  obtain rfl : t = s.raise e := exec_error ran err
  exact ⟨rfl, (exec_result_update i s _).trans ran⟩

/-! ### An unbuilt table gives no value (R99) -/

/-- The operation answers OK with v in s: the result column of 30_encoding.md R40, with where each value comes from. -/
def OkValue (s : State) (v : Value) : Instr → Prop
  | .buildTable _ => v = .none
  | .checksum data => ∃ w, checksumNow s data = .ok w ∧ v = .word w
  | .frameNew ty id sq payload => ∃ f, frameNew s ty id sq payload = .ok f ∧ v = .frame f
  | .framePack f => v = .bytes (framePack f)
  | .frameUnpack b => ∃ f, frameUnpack s b = .ok f ∧ v = .frame f
  | .ackParse b => ∃ a, ackParse b = .ok a ∧ v = .ack a
  | .ackIsAck a => v = .bit (ackIsAck a)
  | .reserved7 => False

theorem State.complete_ok_iff (s : State) (u v : Value) : (s.complete u).result = some (.ok v) ↔ v = u := by
  simp [eq_comm]

theorem State.answer_map_ok_iff {α : Type} (s : State) (r : Except Error α) (mk : α → Value) (v : Value) :
    (s.answer (r.map mk)).result = some (.ok v) ↔ ∃ a, r = .ok a ∧ v = mk a := by
  cases r <;> simp [Except.map, eq_comm]

theorem exec_ok_iff {i : Instr} {s t : State} (v : Value) (ran : exec i s = .next t) :
    t.result = some (.ok v) ↔ OkValue s v i := by
  cases i <;> injection ran with ran <;> subst ran
  case buildTable | framePack | ackIsAck => exact State.complete_ok_iff _ _ v
  case checksum | frameNew | frameUnpack | ackParse => exact State.answer_map_ok_iff s _ _ v
  case reserved7 => simp [OkValue]

theorem tableValid_of_checksumNow_ok {s : State} {data : List Byte} {w : Word} (h : checksumNow s data = .ok w) :
    s.tableValid = true := by
  by_contra unbuilt
  rw [checksumNow_of_not_valid s data (Bool.eq_false_of_not_eq_true unbuilt)] at h
  cases h

/-- Only CHECKSUM answers a checksum, and only from a built table. -/
theorem tableValid_of_word {s : State} {i : Instr} {w : Word} (ok : OkValue s (.word w) i) : s.tableValid = true := by
  cases i <;> simp only [OkValue, reduceCtorEq, and_false, exists_false] at ok
  case checksum data =>
    obtain ⟨crc, made, -⟩ := ok
    exact tableValid_of_checksumNow_ok made

/-- Only FRAME_NEW and FRAME_UNPACK answer a Frame, and only from a built table. -/
theorem tableValid_of_frame {s : State} {i : Instr} {f : Frame} (ok : OkValue s (.frame f) i) :
    s.tableValid = true := by
  cases i <;> simp only [OkValue, reduceCtorEq, and_false, exists_false] at ok
  case frameNew ty id sq payload =>
    obtain ⟨g, made, -⟩ := ok
    obtain ⟨-, -, -, -, built, -⟩ := frameNew_ok s ty id sq payload g made
    exact built
  case frameUnpack b =>
    obtain ⟨g, made, -⟩ := ok
    obtain ⟨-, -, -, -, -, -, built, -⟩ := frameUnpack_ok s b g made
    exact built

/-- Settles O37: the three operations stop at the table, and an answered checksum or Frame shows that it was built. -/
theorem unbuiltTableGivesNoValue : Obligations.UnbuiltTableGivesNoValue := by
  intro s unbuilt
  have notBuilt : s.tableValid ≠ true := by simp [unbuilt]
  refine ⟨fun data => ?_, fun ty id sq payload ok => exec_frameNew_of_error (frameNew_tableNotBuilt ok unbuilt),
    fun b framed => exec_frameUnpack_of_error (frameUnpack_tableNotBuilt framed unbuilt), fun i t ran => ⟨?_, ?_⟩⟩
  · rw [exec_checksum, checksumNow_of_not_valid s data unbuilt]
    rfl
  · exact fun v word => notBuilt (tableValid_of_word ((exec_ok_iff _ ran).mp word))
  · exact fun f frame => notBuilt (tableValid_of_frame ((exec_ok_iff _ ran).mp frame))

/-! ### Operation code 7 (R100) -/

/-- Code 7 takes no operand from the ports (30_encoding.md R47 (a)). -/
theorem decode_seven (ports : Ports) : decode { op := 7, ports := ports } = .reserved7 := rfl

theorem exec_reserved7 (s : State) : exec .reserved7 s = .next (s.raise .illegalOperation) := rfl

/-- Settles O36: the decoder's last arm, and an error that leaves only its result. -/
theorem codeSevenIsIllegal : Obligations.CodeSevenIsIllegal :=
  ⟨decode_seven, exec_reserved7⟩

end Sys2Proof.Machine

/-! PROOFS of 41_frame.md section 3: FRAME_UNPACK and FRAME_PACK undo each other. -/

namespace Sys2Proof.Machine

open Sys2Proof.Spec

/-! ### Unpacking packed bytes (R66) -/

section
variable {s : State} {f : Frame}

/-- Packed bytes pass steps 1 to 7 of R63, whatever FRAME_TRAILING_BYTES is: they end with the frame. -/
theorem wellFramed_framePack {p : Params} (shape : frameShape p f = true) : wellFramed p (framePack f) := by
  obtain ⟨sof, eof, len, lenOk, sqOk⟩ := (frameShape_iff p f).mp shape
  refine ⟨⟨sof, ?_, ?_⟩, fun _ => ?_, ?_, sqOk⟩ <;> simp only [memRead_framePack_payloadLen, len]
  · exact lenOk
  · exact (framePack_length f).ge
  · exact framePack_length f
  · rw [byteAt_framePack_eof, eof]

/-- The fields that stand in packed bytes are those of the record, when payload_len is the payload's length. -/
theorem frameInBuffer_framePack (len : f.payloadLen.toNat = f.payload.length) : frameInBuffer (framePack f) = f := by
  simp only [frameInBuffer, byteAt_framePack_sof, byteAt_framePack_frameType, memRead_framePack_datagramId,
    byteAt_framePack_sequenceNum, memRead_framePack_payloadLen, len, slice_framePack_payload, memRead_framePack_crc32,
    byteAt_framePack_eof, BitVec.ofNat_toNat, BitVec.setWidth_eq]
  rw [← len, BitVec.ofNat_toNat, BitVec.setWidth_eq]

/-- Of the packed bytes of a record of the right shape, only the checksum can be wrong. -/
theorem frameUnpack_framePack (built : s.tableValid = true) (shape : frameShape s.params f = true) :
    frameUnpack s (framePack f) =
      if checksum s.table f.payload ≠ f.crc32 then .error .checksumFailure else .ok f := by
  obtain ⟨-, -, len, -, -⟩ := (frameShape_iff s.params f).mp shape
  rw [frameUnpack_of_wellFramed (wellFramed_framePack shape), if_neg (by simp [built]), frameInBuffer_framePack len]

theorem frameUnpack_framePack_of_invariant (built : s.tableValid = true)
    (inv : frameInvariant s.params s.table f = true) : frameUnpack s (framePack f) = .ok f := by
  obtain ⟨shape, crc⟩ := (frameInvariant_iff _ _ f).mp inv
  rw [frameUnpack_framePack built shape, if_neg (not_not.mpr crc.symm)]

end

/-- Settles O20: the packed bytes of a Frame value unpack to it. -/
theorem frameRoundTrip : Obligations.FrameRoundTrip :=
  fun s f built => ⟨framePack f.val, exec_framePack f.val s,
    exec_frameUnpack_of_ok (frameUnpack_framePack_of_invariant built f.property)⟩

/-- Settles O28: the checksum is over the payload alone, so the changed record meets the invariant too. -/
theorem headerFieldsAreNotCovered : Obligations.HeaderFieldsAreNotCovered := by
  intro s f ty id sq built inv sqOk
  obtain ⟨shape, crc⟩ := (frameInvariant_iff _ _ f).mp inv
  obtain ⟨sof, eof, len, lenOk, -⟩ := (frameShape_iff s.params f).mp shape
  have changedInv : frameInvariant s.params s.table { f with frameType := ty, datagramId := id, sequenceNum := sq } = true :=
    (frameInvariant_iff _ _ _).mpr ⟨(frameShape_iff _ _).mpr ⟨sof, eof, len, lenOk, sqOk⟩, crc⟩
  exact exec_frameUnpack_of_ok (frameUnpack_framePack_of_invariant built changedInv)

/-- Settles O29: the packed bytes are well framed, so step 9 alone decides. -/
theorem otherTableGivesChecksumFailure : Obligations.OtherTableGivesChecksumFailure := by
  intro s f built shape mismatch
  refine exec_frameUnpack_of_error ?_
  rw [frameUnpack_framePack built shape, if_pos mismatch]

/-! ### Packing an unpacked Frame (R66) -/

theorem slice_append_slice (buf : List Byte) {a m c : Nat} (am : a ≤ m) (mc : m ≤ c) :
    slice buf a m ++ slice buf m c = slice buf a c := by
  have upTo : ∀ x ≤ c, slice buf a x = (slice buf a c).take (x - a) := fun x xc => by
    rw [slice, slice, List.drop_take, List.drop_take, List.take_take, Nat.min_eq_left (Nat.sub_le_sub_right xc a)]
  have fromM : slice buf m c = (slice buf a c).drop (m - a) := by
    rw [slice, slice, List.drop_drop, Nat.add_sub_cancel' am]
  rw [upTo m mc, fromM, List.take_append_drop]

/-- One byte is the slice that holds it. -/
theorem singleton_byteAt (buf : List Byte) {i : Nat} (inside : i < buf.length) : [byteAt buf i] = slice buf i (i + 1) := by
  rw [slice, List.drop_take, Nat.add_sub_cancel_left, List.drop_eq_getElem_cons inside, byteAt,
    List.getD_eq_getElem buf 0 inside]
  rfl

/-- Writing a field that was read gives the bytes it stands in. -/
theorem leBytes_memRead (buf : List Byte) {off n : Nat} (inside : off + n ≤ buf.length) :
    leBytes n (memRead buf off n) = slice buf off (off + n) := by
  have len : (slice buf off (off + n)).length = n := by rw [slice_length]; omega
  have written := leBytes_leValue (slice buf off (off + n))
  rwa [len] at written

/-- The bytes of the frame that stands whole in a buffer: each field is the slice it was read from, and the slices
follow one another. -/
theorem framePack_frameInBuffer {b : List Byte} (whole : 14 + memRead b 7 2 ≤ b.length) :
    framePack (frameInBuffer b) = b.take (14 + memRead b 7 2) := by
  rw [framePack, frameInBuffer_datagramId, frameInBuffer_payloadLen, frameInBuffer_crc32]
  simp only [frameInBuffer]
  generalize len : memRead b 7 2 = n at whole ⊢
  have sofAndType : [byteAt b 0, byteAt b 1] = slice b 0 2 := by
    rw [← slice_append_slice b (show 0 ≤ 1 by omega) (show 1 ≤ 2 by omega), ← singleton_byteAt b (by omega),
      ← singleton_byteAt b (by omega)]
    rfl
  have crc : leBytes 4 (memRead b (9 + n) 4) = slice b (9 + n) (13 + n) := by
    rw [leBytes_memRead b (by omega), Nat.add_right_comm]
  have eof : [byteAt b (13 + n)] = slice b (13 + n) (14 + n) := by
    rw [singleton_byteAt b (by omega), Nat.add_right_comm]
  rw [sofAndType, leBytes_memRead b (show 2 + 4 ≤ b.length by omega), singleton_byteAt b (show 6 < b.length by omega),
    ← len, leBytes_memRead b (show 7 + 2 ≤ b.length by omega), len, crc, eof]
  iterate 6 rw [slice_append_slice b (by omega) (by omega)]
  rfl

/-- Settles O21: what FRAME_UNPACK answers stands in the buffer, and packing writes each field back. -/
theorem unpackedFramePacksToItsBytes : Obligations.UnpackedFramePacksToItsBytes := by
  intro s t b f ran answered
  obtain ⟨g, unpacked, same⟩ := (exec_ok_iff (.frame f) ran).mp answered
  cases same
  obtain ⟨whole, -, -, -, -, -, -, -, inBuffer⟩ := frameUnpack_ok s b f unpacked
  obtain rfl : f = frameInBuffer b := inBuffer
  rw [exec_framePack, framePack_frameInBuffer whole, frameInBuffer_payloadLen]
  rfl

/-! ### The pseudo-operations (30_encoding.md R49) -/

/-- A Frame FRAME_NEW makes meets the invariant of 10_state.md R21 under the parameters and the table in force. -/
theorem frameInvariant_of_frameNew {s : State} {ty id sq : Nat} {payload : List Byte} {f : Frame}
    (made : frameNew s ty id sq payload = .ok f) : frameInvariant s.params s.table f = true := by
  have len := frameNew_ok_payloadLen made
  have number := frameNew_ok_sequenceNum made
  obtain ⟨-, -, sqOk, lenOk, -, rfl⟩ := frameNew_ok s ty id sq payload f made
  exact (frameInvariant_iff _ _ _).mpr ⟨(frameShape_iff _ _).mpr ⟨rfl, rfl, len, lenOk, number.trans_lt sqOk⟩, rfl⟩

/-- Settles O30: the Frame made meets the invariant, so its packed bytes unpack to OK. -/
theorem builtFrameChecksOk : Obligations.BuiltFrameChecksOk := by
  intro s ty id sq payload built ok
  have made := frameNew_makes_frame ok built
  refine ⟨_, congrArg (Except.map framePack) made, ?_⟩
  rw [frameCheck, frameUnpack_framePack_of_invariant built (frameInvariant_of_frameNew made)]

end Sys2Proof.Machine

/-! PROOFS of 00_scope.md, 10_state.md and 30_encoding.md section 1: what one step does with the event the host presents,
which registers an operation writes, and the invariant every step keeps. -/

namespace Sys2Proof.Machine

open Sys2Proof.Spec

/-! ### A step by its first event (00_scope.md R11) -/

section
variable {s : State} {c : Command} {rest : List HostEvent}

theorem step_of_idle (idle : s.pending = []) : step s = .next (s.takeEvent []) := by
  simp only [step, fetch, idle]

theorem step_of_reset (first : s.pending = .reset :: rest) : step s = .next (s.takeEvent rest).resetEvent := by
  simp only [step, fetch, first]

theorem step_of_present (first : s.pending = .present c :: rest)
    (wf : (decode c).wellFormed s.params c.ports.madeUnder = true) : step s = exec (decode c) (s.takeEvent rest) := by
  simp only [step, fetch, first, wf, if_true]

theorem step_of_ill_formed (first : s.pending = .present c :: rest)
    (ill : (decode c).wellFormed s.params c.ports.madeUnder = false) :
    step s = .refused (operandRefusal (decode c)) := by
  simp only [step, fetch, first, ill, Bool.false_eq_true, if_false]

end

/-- Settles O1: the reset event, and the fields it leaves. -/
theorem resetClearsTableValid : Obligations.ResetClearsTableValid :=
  ⟨State.reset_tableValid, fun _ _ first => ⟨_, step_of_reset first, rfl, rfl, rfl, rfl⟩⟩

/-- Settles O2: the state with the event taken is the one written out. -/
theorem stepRunsThePresentedOperation : Obligations.StepRunsThePresentedOperation :=
  fun _ _ _ first wf => step_of_present first wf

/-- Settles O3: one clause for the idle step, one for each operand that can be ill-formed. -/
theorem stepIdlesOrRefusesAnOperand : Obligations.StepIdlesOrRefusesAnOperand := by
  refine ⟨fun s idle => ?_, fun s c rest f first decoded ill => ?_, fun s c rest a first decoded ill => ?_⟩
  · rw [step_of_idle idle, State.takeEvent, ← idle]
  · rw [step_of_ill_formed first (by rw [decoded]; exact ill), decoded]
    rfl
  · rw [step_of_ill_formed first (by rw [decoded]; exact ill), decoded]
    rfl

/-- An operation that answers leaves a result, OK or an error. -/
theorem exec_result_isSome {i : Instr} {s t : State} (ran : exec i s = .next t) : ∃ r, t.result = some r := by
  obtain ⟨poly, -, rfl⟩ | ⟨-, raised | v, rfl⟩ := exec_cases i s t ran <;> exact ⟨_, rfl⟩

/-- `takeEvent` clears an earlier result before the step does anything (10_state.md R18). -/
theorem step_result_update (s : State) (earlier : Option Result) : step { s with result := earlier } = step s := rfl

/-- Settles O4: no operation and no step reads an earlier result, and an idle step leaves none. -/
theorem noOutcomeIsLatched : Obligations.NoOutcomeIsLatched := by
  refine ⟨fun i s => ?_, step_result_update, exec_result_update, fun s t idle ran => ?_⟩
  · obtain ⟨t, ran⟩ := exec_answers i s
    obtain ⟨r, answered⟩ := exec_result_isSome ran
    exact ⟨t, r, ran, answered⟩
  · rw [step_of_idle idle] at ran
    cases ran
    rfl

/-! ### Select codes (30_encoding.md R40) -/

theorem decode_encode (i : Instr) (madeUnder : Word) : decode (encode i madeUnder) = i := by
  cases i <;> rfl

/-- Presenting an operation's command runs the operation. -/
theorem step_of_encode {s : State} {i : Instr} {madeUnder : Word} {rest : List HostEvent}
    (first : s.pending = .present (encode i madeUnder) :: rest) (wf : i.wellFormed s.params madeUnder = true) :
    step s = exec i (s.takeEvent rest) := by
  rw [step_of_present first (by rw [decode_encode]; exact wf), decode_encode]

/-- Settles O5: the command decodes to the operation, so presenting it runs it. -/
theorem encodedOperationRuns : Obligations.EncodedOperationRuns :=
  fun i madeUnder _ _ => ⟨decode_encode i madeUnder, fun wf => step_of_encode rfl wf⟩

/-- Settles O6: each word's three bits select their row of the decoder. -/
theorem selectCodesDecode : Obligations.SelectCodesDecode :=
  ⟨rfl, rfl, rfl, rfl, rfl, rfl, rfl, rfl⟩

/-! ### Registers and parameters (10_state.md R14 to R16, R24) -/

/-- Settles O39: an idle step and every operation but BUILD_TABLE write no register. -/
theorem onlyBuildTableAndResetWriteRegisters : Obligations.OnlyBuildTableAndResetWriteRegisters := by
  intro s t ran
  obtain ⟨-, rfl⟩ | ⟨rest, first, rfl⟩ | ⟨c, rest, first, -, run⟩ := step_cases s t ran
  · exact .inl ⟨rfl, rfl, rfl⟩
  · exact .inr (.inl ⟨rest, first, rfl⟩)
  · obtain ⟨poly, decoded, rfl⟩ | ⟨-, r, rfl⟩ := exec_cases _ _ t run
    · exact .inr (.inr ⟨c, rest, poly, first, decoded, rfl, rfl, rfl⟩)
    · exact .inl ⟨State.answer_poly r _, State.answer_table r _, State.answer_tableValid r _⟩

theorem exec_params {i : Instr} {s t : State} (ran : exec i s = .next t) : t.params = s.params := by
  obtain ⟨poly, -, rfl⟩ | ⟨-, r, rfl⟩ := exec_cases i s t ran
  · rfl
  · exact State.answer_params r s

theorem exec_pending {i : Instr} {s t : State} (ran : exec i s = .next t) : t.pending = s.pending := by
  obtain ⟨poly, -, rfl⟩ | ⟨-, r, rfl⟩ := exec_cases i s t ran
  · rfl
  · exact State.answer_pending r s

/-- Only a reset makes a built table unbuilt. -/
theorem exec_keeps_built {i : Instr} {s t : State} (ran : exec i s = .next t) (built : s.tableValid = true) :
    t.tableValid = true := by
  obtain ⟨poly, -, rfl⟩ | ⟨-, r, rfl⟩ := exec_cases i s t ran
  · rfl
  · rw [State.answer_tableValid, built]

/-- Settles O40: neither taking an event, nor a reset, nor an operation writes the parameters. -/
theorem parametersNeverChange : Obligations.ParametersNeverChange := by
  intro s t ran
  obtain ⟨-, rfl⟩ | ⟨rest, -, rfl⟩ | ⟨c, rest, -, -, run⟩ := step_cases s t ran
  · rfl
  · rfl
  · exact (exec_params run).trans (State.takeEvent_params rest s)

/-! ### The values operations answer (10_state.md R21, R22) -/

/-- An operation that answers OK with a value only leaves it as its result: BUILD_TABLE, the one that writes, answers
none. -/
theorem exec_ok {i : Instr} {s t : State} {v : Value} (ran : exec i s = .next t) (ok : t.result = some (.ok v))
    (hasValue : v ≠ .none) : t = s.complete v := by
  obtain ⟨poly, -, rfl⟩ | ⟨-, raised | w, rfl⟩ := exec_cases i s t ran
  · cases ok
    exact absurd rfl hasValue
  · cases ok
  · cases ok
    rfl

/-- A Frame FRAME_UNPACK reads meets the invariant: its steps are the checks (41_frame.md R63). -/
theorem frameInvariant_of_frameUnpack {s : State} {b : List Byte} {f : Frame} (read : frameUnpack s b = .ok f) :
    frameInvariant s.params s.table f = true := by
  obtain ⟨whole, sof, lenOk, -, eof, sqOk, -, crc, inBuffer⟩ := frameUnpack_ok s b f read
  obtain rfl : f = frameInBuffer b := inBuffer
  have payloadLength : (frameInBuffer b).payload.length = memRead b 7 2 := by
    rw [frameInBuffer, slice_length]
    omega
  refine (frameInvariant_iff _ _ _).mpr ⟨(frameShape_iff _ _).mpr ⟨sof, eof, ?_, ?_, sqOk⟩, crc.symm⟩
  · rw [payloadLength, frameInBuffer_payloadLen]
  · rw [payloadLength]
    exact lenOk

/-- Only FRAME_NEW and FRAME_UNPACK answer a Frame, and it meets its invariant. -/
theorem frameInvariant_of_ok {s : State} {i : Instr} {f : Frame} (ok : OkValue s (.frame f) i) :
    frameInvariant s.params s.table f = true
      ∧ ((∃ ty id sq payload, i = .frameNew ty id sq payload) ∨ ∃ b, i = .frameUnpack b) := by
  cases i <;> simp only [OkValue, reduceCtorEq, and_false, exists_false] at ok
  case frameNew ty id sq payload =>
    obtain ⟨g, made, same⟩ := ok
    cases same
    exact ⟨frameInvariant_of_frameNew made, .inl ⟨ty, id, sq, payload, rfl⟩⟩
  case frameUnpack b =>
    obtain ⟨g, read, same⟩ := ok
    cases same
    exact ⟨frameInvariant_of_frameUnpack read, .inr ⟨b, rfl⟩⟩

/-- Settles O22: read off the operation that answers a Frame. -/
theorem frameValuesMeetTheInvariant : Obligations.FrameValuesMeetTheInvariant :=
  fun _ _ _ f ran answered => frameInvariant_of_ok ((exec_ok_iff (.frame f) ran).mp answered)

/-- What ACK_PARSE answers is an Ack value: its message is a trimmed slice of 256 bytes. -/
theorem wellFormed_of_ackParse {b : List Byte} {a : Ack} (parsed : ackParse b = .ok a) : a.wellFormed = true := by
  rcases Nat.lt_or_ge b.length 262 with short | long
  · rw [ackParse_of_short short] at parsed
    cases parsed
  · rw [ackParse_of_long long] at parsed
    cases parsed
    refine (wellFormed_ack_iff _).mpr ⟨(trimNul_length_le _).trans ?_, trimNul_getLast?_ne_zero _⟩
    rw [slice_length]
    omega

/-- Only ACK_PARSE answers an Ack. -/
theorem wellFormed_of_ack {s : State} {i : Instr} {a : Ack} (ok : OkValue s (.ack a) i) : a.wellFormed = true := by
  cases i <;> simp only [OkValue, reduceCtorEq, and_false, exists_false] at ok
  case ackParse b =>
    obtain ⟨g, parsed, same⟩ := ok
    cases same
    exact wellFormed_of_ackParse parsed

/-! ### The invariant of the block -/

/-- Settles O44: with TABLE_VALID 0 and no result held, there is nothing to meet. -/
theorem resetMeetsTheInvariant : Obligations.ResetMeetsTheInvariant :=
  ⟨fun built => (nomatch built), rfl⟩

theorem invariant_takeEvent {s : State} (rest : List HostEvent) (inv : Invariant s) : Invariant (s.takeEvent rest) :=
  ⟨inv.tableOfPoly, rfl⟩

theorem invariant_resetEvent (s : State) : Invariant s.resetEvent :=
  ⟨fun built => (nomatch built), rfl⟩

/-- The result an operation leaves fits the state it leaves: a value other than none stands in the state it was made
in. -/
theorem resultInvariant_of_exec {i : Instr} {s t : State} (ran : exec i s = .next t) : resultInvariant t = true := by
  unfold resultInvariant
  split
  case h_1 w word =>
    rw [exec_ok ran word nofun]
    exact tableValid_of_word ((exec_ok_iff _ ran).mp word)
  case h_2 f frame =>
    have ok := (exec_ok_iff _ ran).mp frame
    rw [exec_ok ran frame nofun, Bool.and_eq_true]
    exact ⟨tableValid_of_frame ok, (frameInvariant_of_ok ok).1⟩
  case h_3 a ack => exact wellFormed_of_ack ((exec_ok_iff _ ran).mp ack)
  case h_4 => rfl

theorem exec_keeps_invariant {i : Instr} {s t : State} (inv : Invariant s) (ran : exec i s = .next t) : Invariant t := by
  refine ⟨fun built => ?_, resultInvariant_of_exec ran⟩
  obtain ⟨poly, -, rfl⟩ | ⟨-, r, rfl⟩ := exec_cases i s t ran
  · rfl
  · rw [State.answer_tableValid] at built
    rw [State.answer_table, State.answer_poly, inv.tableOfPoly built]

/-- Settles O45: an idle step and a reset leave no result, and an operation leaves one that fits. -/
theorem everyStepKeepsTheInvariant : Obligations.EveryStepKeepsTheInvariant := by
  intro s t inv ran
  obtain ⟨-, rfl⟩ | ⟨rest, -, rfl⟩ | ⟨c, rest, -, -, run⟩ := step_cases s t ran
  · exact invariant_takeEvent [] inv
  · exact invariant_resetEvent _
  · exact exec_keeps_invariant (invariant_takeEvent rest inv) run

/-! ### What a result depends on (10_state.md R19, R23, 20_memory.md R34) -/

theorem State.answer_result_congr (r : Except Error Value) (s1 s2 : State) :
    (s1.answer r).result = (s2.answer r).result := by
  cases r <;> rfl

/-- Settles O42: the three operations compute their result from the operand alone. -/
theorem packAndAckReadNoState : Obligations.PackAndAckReadNoState := by
  rintro i (⟨f, rfl⟩ | ⟨b, rfl⟩ | ⟨a, rfl⟩) s1 s2
  · exact ⟨_, _, exec_framePack f s1, exec_framePack f s2, rfl⟩
  · exact ⟨_, _, exec_ackParse b s1, exec_ackParse b s2, State.answer_result_congr _ s1 s2⟩
  · exact ⟨_, _, exec_ackIsAck a s1, exec_ackIsAck a s2, rfl⟩

section
variable {s1 s2 : State} (params : s1.params = s2.params) (valid : s1.tableValid = s2.tableValid)
  (table : s1.tableValid = true → s1.table = s2.table)

include valid table in
theorem checksumNow_congr (data : List Byte) : checksumNow s1 data = checksumNow s2 data := by
  cases built : s1.tableValid
  · rw [checksumNow_of_not_valid s1 data built, checksumNow_of_not_valid s2 data (valid ▸ built)]
  · rw [checksumNow_of_valid s1 data built, checksumNow_of_valid s2 data (valid ▸ built), table built]

include params valid table

theorem frameNew_congr (ty id sq : Nat) (payload : List Byte) :
    frameNew s1 ty id sq payload = frameNew s2 ty id sq payload := by
  cases built : s1.tableValid
  · simp only [frameNew, params, ← valid, built, if_true]
  · simp only [frameNew, params, ← valid, table built]

theorem frameUnpack_congr (b : List Byte) : frameUnpack s1 b = frameUnpack s2 b := by
  cases built : s1.tableValid
  · simp only [frameUnpack, params, ← valid, built, if_true]
  · simp only [frameUnpack, params, ← valid, table built]

end

/-- Settles O41: the operations that read the state read TABLE_VALID, the parameters, and the table when it is valid. -/
theorem resultsDependOnTableAndParametersOnly : Obligations.ResultsDependOnTableAndParametersOnly := by
  intro i s1 s2 params valid table
  cases i with
  | buildTable poly => exact ⟨_, _, exec_buildTable poly s1, exec_buildTable poly s2, rfl⟩
  | checksum data =>
    refine ⟨_, _, exec_checksum data s1, exec_checksum data s2, ?_⟩
    rw [checksumNow_congr valid table]
    exact State.answer_result_congr _ s1 s2
  | frameNew ty id sq payload =>
    refine ⟨_, _, exec_frameNew ty id sq payload s1, exec_frameNew ty id sq payload s2, ?_⟩
    rw [frameNew_congr params valid table]
    exact State.answer_result_congr _ s1 s2
  | frameUnpack b =>
    refine ⟨_, _, exec_frameUnpack b s1, exec_frameUnpack b s2, ?_⟩
    rw [frameUnpack_congr params valid table]
    exact State.answer_result_congr _ s1 s2
  | framePack f => exact packAndAckReadNoState _ (.inl ⟨f, rfl⟩) s1 s2
  | ackParse b => exact packAndAckReadNoState _ (.inr (.inl ⟨b, rfl⟩)) s1 s2
  | ackIsAck a => exact packAndAckReadNoState _ (.inr (.inr ⟨a, rfl⟩)) s1 s2
  | reserved7 => exact ⟨_, _, exec_reserved7 s1, exec_reserved7 s2, rfl⟩

/-! ### A dutiful host (70_reset_and_hazards.md R112) -/

/-- The operation answers error e in s: the error column of 30_encoding.md R40, with where each error comes from. -/
def ErrorOf (s : State) (e : Error) : Instr → Prop
  | .checksum data => checksumNow s data = .error e
  | .frameNew ty id sq payload => frameNew s ty id sq payload = .error e
  | .frameUnpack b => frameUnpack s b = .error e
  | .ackParse b => ackParse b = .error e
  | .reserved7 => e = .illegalOperation
  | .buildTable _ | .framePack _ | .ackIsAck _ => False

theorem State.answer_map_error_iff {α : Type} (s : State) (r : Except Error α) (mk : α → Value) (e : Error) :
    (s.answer (r.map mk)).result = some (.error e) ↔ r = .error e := by
  cases r <;> simp [Except.map]

theorem exec_error_iff {i : Instr} {s t : State} (e : Error) (ran : exec i s = .next t) :
    t.result = some (.error e) ↔ ErrorOf s e i := by
  cases i <;> injection ran with ran <;> subst ran
  case checksum | frameNew | frameUnpack | ackParse => exact State.answer_map_error_iff s _ _ e
  case buildTable | framePack | ackIsAck | reserved7 => simp [ErrorOf, eq_comm]

/-- Under a built table FRAME_NEW fails only at its range checks. -/
theorem frameNew_error_of_built {s : State} {ty id sq : Nat} {payload : List Byte} {e : Error}
    (built : s.tableValid = true) (err : frameNew s ty id sq payload = .error e) : ∃ c, e = .constructionError c := by
  simp only [frameNew, built, reduceCtorEq, if_false] at err
  split_ifs at err <;> exact ⟨_, (Except.error.inj err).symm⟩

/-- Under a built table FRAME_UNPACK fails only at its framing checks or at the checksum. -/
theorem frameUnpack_error_of_built {s : State} {b : List Byte} {e : Error}
    (built : s.tableValid = true) (err : frameUnpack s b = .error e) :
    (∃ c, e = .parseError c) ∨ e = .checksumFailure := by
  simp only [frameUnpack, built, reduceCtorEq, if_false] at err
  split_ifs at err <;> obtain rfl := Except.error.inj err <;> simp

theorem ackParse_error {b : List Byte} {e : Error} (err : ackParse b = .error e) : e = .parseError .shortBuffer := by
  rcases Nat.lt_or_ge b.length 262 with short | long
  · rw [ackParse_of_short short] at err
    exact (Except.error.inj err).symm
  · rw [ackParse_of_long long] at err
    cases err

/-- Under a built table only code 7 ends in one of the two errors that are host mistakes. -/
theorem not_hostMistake_of_built {i : Instr} {s t : State} {r : Result} (ran : exec i s = .next t)
    (built : s.tableValid = true) (legal : i ≠ .reserved7) (answered : t.result = some r) : hostMistake r = false := by
  rcases r with v | e
  · rfl
  · have err := (exec_error_iff e ran).mp answered
    cases i <;> simp only [ErrorOf] at err
    case checksum data =>
      rw [checksumNow_of_valid s data built] at err
      cases err
    case frameNew =>
      obtain ⟨c, rfl⟩ := frameNew_error_of_built built err
      rfl
    case frameUnpack =>
      obtain ⟨c, rfl⟩ | rfl := frameUnpack_error_of_built built err <;> rfl
    case ackParse =>
      rw [ackParse_error err]
      rfl
    case reserved7 => exact absurd rfl legal

/-- A dutiful host's event: an operation other than code 7 with well-formed operands. -/
def Dutiful (p : Params) (e : HostEvent) : Prop :=
  ∃ c, e = .present c ∧ (decode c).wellFormed p c.ports.madeUnder = true ∧ decode c ≠ .reserved7

/-- One step of a dutiful host's run is good, and what is left to run is a dutiful host's again. -/
theorem step_of_dutiful {s : State} (built : s.tableValid = true) (dutiful : ∀ e ∈ s.pending, Dutiful s.params e) :
    ∃ t, step s = .next t ∧ t.result.any hostMistake = false ∧ t.tableValid = true
      ∧ ∀ e ∈ t.pending, Dutiful t.params e := by
  rcases pending : s.pending with _ | ⟨e, rest⟩
  · exact ⟨_, step_of_idle pending, rfl, built, fun e mem => nomatch mem⟩
  · rw [pending, List.forall_mem_cons] at dutiful
    obtain ⟨⟨c, rfl, wf, legal⟩, later⟩ := dutiful
    obtain ⟨t, ran⟩ := exec_answers (decode c) (s.takeEvent rest)
    obtain ⟨r, answered⟩ := exec_result_isSome ran
    refine ⟨t, (step_of_present pending wf).trans ran, ?_, exec_keeps_built ran built, ?_⟩
    · rw [answered]
      exact not_hostMistake_of_built ran built legal answered
    · rw [exec_pending ran, exec_params ran]
      exact later

theorem goodRun_of_dutiful (n : Nat) {s : State} (built : s.tableValid = true)
    (dutiful : ∀ e ∈ s.pending, Dutiful s.params e) : goodRun n s = true := by
  induction n generalizing s with
  | zero => rfl
  | succ n ih =>
    obtain ⟨t, ran, good, built', dutiful'⟩ := step_of_dutiful built dutiful
    simp only [goodRun, ran, good, ih built' dutiful']
    rfl

/-- Settles O43: by induction on the number of steps, each of which leaves a built table and a dutiful host. -/
theorem bootedRunIsGood : Obligations.BootedRunIsGood :=
  fun n _ built dutiful => goodRun_of_dutiful n built dutiful

end Sys2Proof.Machine

/-! PROOFS of 40_checksum.md: the table's entries and the fold as a polynomial division, and what rule 57 says a checksum
does and does not see. -/

namespace Sys2Proof.Machine

open Sys2Proof.Spec

/-! ### Shift steps (R51) -/

theorem entryStep_eq_xor (poly c : Word) : entryStep poly c = (c <<< 1) ^^^ (if c.msb then poly else 0) := by
  unfold entryStep
  split <;> simp

theorem entryStep_toNat (poly c : Word) :
    (entryStep poly c).toNat
      = if c.toNat ≥ 2 ^ 31 then (c.toNat * 2 % 2 ^ 32) ^^^ poly.toNat else c.toNat * 2 % 2 ^ 32 := by
  have msb : c.msb = true ↔ c.toNat ≥ 2 ^ 31 := by rw [BitVec.msb_eq_decide, decide_eq_true_iff]
  have shift : (c <<< 1).toNat = c.toNat * 2 % 2 ^ 32 := by rw [BitVec.toNat_shiftLeft, Nat.shiftLeft_eq]
  simp only [entryStep, msb, apply_ite BitVec.toNat, BitVec.toNat_xor, shift]

/-- A step is linear: both words' bit 31 bring the generator in, and two generators cancel. -/
theorem entryStep_xor (poly x y : Word) : entryStep poly (x ^^^ y) = entryStep poly x ^^^ entryStep poly y := by
  rw [entryStep_eq_xor, entryStep_eq_xor, entryStep_eq_xor, BitVec.shiftLeft_xor_distrib, BitVec.msb_xor]
  have generators : (if (x.msb ^^ y.msb) = true then poly else 0)
      = (if x.msb = true then poly else 0) ^^^ (if y.msb = true then poly else 0) := by
    cases x.msb <;> cases y.msb <;> simp
  rw [generators]
  ac_rfl

theorem iterate_entryStep_xor (poly : Word) (n : Nat) (x y : Word) :
    (entryStep poly)^[n] (x ^^^ y) = (entryStep poly)^[n] x ^^^ (entryStep poly)^[n] y := by
  induction n generalizing x y with
  | zero => rfl
  | succ n ih => simp only [Function.iterate_succ_apply, entryStep_xor, ih]

/-- While no bit reaches bit 31, steps are plain shifts. -/
theorem iterate_entryStep_of_lt (poly : Word) (n : Nat) (c : Word) (small : c.toNat * 2 ^ n < 2 ^ 32) :
    (entryStep poly)^[n] c = c <<< n := by
  induction n with
  | zero => simp
  | succ n ih =>
    rw [pow_succ, ← mul_assoc] at small
    have shifted : (c <<< n).toNat = c.toNat * 2 ^ n := by
      rw [BitVec.toNat_shiftLeft, Nat.shiftLeft_eq, Nat.mod_eq_of_lt (by omega)]
    have low : (c <<< n).msb = false := by
      rw [BitVec.msb_eq_decide, decide_eq_false_iff_not, shifted]
      omega
    rw [Function.iterate_succ_apply', ih (by omega), entryStep, low, BitVec.shiftLeft_add]
    rfl

/-- A byte in bits 31 to 24. -/
theorem topPlaced_toNat (b : Byte) : (b.setWidth 32 <<< 24 : Word).toNat = b.toNat * 2 ^ 24 := by
  have wide : (b.setWidth 32).toNat = b.toNat := BitVec.toNat_setWidth_of_le (by decide)
  rw [BitVec.toNat_shiftLeft, Nat.shiftLeft_eq, wide, Nat.mod_eq_of_lt (by omega)]

theorem crcEntry_xor (poly : Word) (a b : Byte) : crcEntry poly (a ^^^ b) = crcEntry poly a ^^^ crcEntry poly b := by
  rw [crcEntry, BitVec.setWidth_xor, BitVec.shiftLeft_xor_distrib, iterate_entryStep_xor, crcEntry, crcEntry]

theorem crcEntry_zero (poly : Word) : crcEntry poly 0 = 0 :=
  iterate_entryStep_of_lt poly 8 0 (by decide)

/-- After seven shifts the one bit of index 1 is bit 31, and the eighth step brings the generator in. -/
theorem crcEntry_one (poly : Word) : crcEntry poly 1 = poly := by
  have seven : (entryStep poly)^[7] (0x1000000 : Word) = 0x80000000 := iterate_entryStep_of_lt poly 7 _ (by decide)
  have start : (1 : Byte).setWidth 32 <<< 24 = (0x1000000 : Word) := by decide
  rw [crcEntry, start, Function.iterate_succ_apply', seven]
  exact BitVec.zero_xor

/-- Settles O8: the sequence of steps in numbers, and entries as images under a linear map. -/
theorem tableEntriesAreEightShifts : Obligations.TableEntriesAreEightShifts := by
  refine ⟨fun poly i => ⟨fun k => (entryStep poly)^[k] (i.setWidth 32 <<< 24), ?_, fun k _ => ?_, rfl⟩,
    fun poly => ⟨crcEntry_zero poly, crcEntry_one poly⟩, crcEntry_xor⟩
  · exact topPlaced_toNat i
  · exact (congrArg BitVec.toNat (Function.iterate_succ_apply' _ k _)).trans (entryStep_toNat poly _)

/-! ### The fold as a division (R51, R53) -/

/-- A word is its lower 24 bits exclusive-or its top byte in place. -/
theorem lower_xor_top (acc : Word) :
    acc = ((acc <<< 8) >>> 8) ^^^ (((acc >>> 24).setWidth 8).setWidth 32 <<< 24) := by
  ext i inside
  rcases Nat.lt_or_ge i 24 with low | high
  · have kept : 8 + i < 32 := by omega
    simp [low, kept]
  · have moved : ¬ 8 + i < 32 := by omega
    have inByte : i - 24 < 8 := by omega
    simp [high.not_gt, moved, inByte, Nat.add_sub_cancel' high, BitVec.getLsbD_eq_getElem inside]

/-- Eight steps move the lower 24 bits up, and put in the entry of the byte that stands at the top. -/
theorem fold_eq_iterate_entryStep (poly acc : Word) (b : Byte) :
    fold (tableOf poly) acc b = (entryStep poly)^[8] (acc ^^^ (b.setWidth 32 <<< 24)) := by
  have lower : (entryStep poly)^[8] ((acc <<< 8) >>> 8) = acc <<< 8 := by
    have up : ((acc <<< 8) >>> 8) <<< 8 = acc <<< 8 := by
      apply BitVec.eq_of_toNat_eq
      simp only [BitVec.toNat_shiftLeft, BitVec.toNat_ushiftRight, Nat.shiftLeft_eq, Nat.shiftRight_eq_div_pow]
      omega
    rw [iterate_entryStep_of_lt, up]
    rw [BitVec.toNat_ushiftRight, Nat.shiftRight_eq_div_pow]
    omega
  calc fold (tableOf poly) acc b
      = acc <<< 8 ^^^ (crcEntry poly ((acc >>> 24).setWidth 8) ^^^ crcEntry poly b) := by
        rw [fold, readEntry_tableOf, tableIndex, crcEntry_xor]
    _ = (entryStep poly)^[8] (((acc <<< 8) >>> 8) ^^^ (((acc >>> 24).setWidth 8).setWidth 32 <<< 24))
          ^^^ crcEntry poly b := by
        rw [iterate_entryStep_xor, lower, crcEntry, BitVec.xor_assoc]
    _ = (entryStep poly)^[8] (acc ^^^ (b.setWidth 32 <<< 24)) := by
        rw [← lower_xor_top, iterate_entryStep_xor, crcEntry]

/-- Settles O10: both sides are linear in the accumulator's lower bits, its top byte and the input byte. -/
theorem foldIsPolynomialDivision : Obligations.FoldIsPolynomialDivision :=
  fold_eq_iterate_entryStep

/-! ### One changed byte (R57 (e)) -/

/-- With bit 0 of poly 1, a step sends only 0 to 0: bit 0 of the value tells whether bit 31 was set, and the other bits
are the rest. -/
theorem eq_zero_of_entryStep {poly c : Word} (odd : poly.getLsbD 0 = true) (zero : entryStep poly c = 0) : c = 0 := by
  have bit0 : (entryStep poly c).getLsbD 0 = c.msb := by
    rw [entryStep_eq_xor]
    cases c.msb <;> simp [odd]
  have low : ¬ c.toNat ≥ 2 ^ 31 := by
    rw [zero, BitVec.msb_eq_decide] at bit0
    exact of_decide_eq_false bit0.symm
  have value := entryStep_toNat poly c
  have zeroNat : (0 : Word).toNat = 0 := rfl
  rw [zero, if_neg low] at value
  exact BitVec.eq_of_toNat_eq (by omega)

theorem entryStep_injective {poly : Word} (odd : poly.getLsbD 0 = true) : Function.Injective (entryStep poly) := by
  intro x y same
  refine BitVec.xor_eq_zero_iff.mp (eq_zero_of_entryStep odd ?_)
  rw [entryStep_xor, same, BitVec.xor_self]
  rfl

section
variable {poly : Word} (odd : poly.getLsbD 0 = true)
include odd

theorem fold_injective_acc (b : Byte) : Function.Injective fun acc => fold (tableOf poly) acc b := by
  intro x y same
  simp only [fold_eq_iterate_entryStep] at same
  exact (BitVec.xor_left_inj _).mp ((entryStep_injective odd).iterate 8 same)

theorem fold_injective_byte (acc : Word) : Function.Injective (fold (tableOf poly) acc) := by
  intro a b same
  simp only [fold_eq_iterate_entryStep] at same
  have inTop := (BitVec.xor_right_inj _).mp ((entryStep_injective odd).iterate 8 same)
  have numbers := congrArg BitVec.toNat inTop
  rw [topPlaced_toNat, topPlaced_toNat] at numbers
  exact BitVec.eq_of_toNat_eq (by omega)

theorem foldl_fold_injective (bytes : List Byte) :
    Function.Injective fun acc => bytes.foldl (fold (tableOf poly)) acc := by
  induction bytes with
  | nil => exact fun _ _ same => same
  | cons b bytes ih => exact ih.comp (fold_injective_acc odd b)

end

/-- Changing one input byte changes one byte of the feed order, wherever its group puts it. -/
theorem feed_set (data : List Byte) {i : Nat} (b : Byte) (inside : i < data.length) :
    ∃ before after, feed data = before ++ byteAt data i :: after
      ∧ feed (data.set i b) = before ++ b :: after := by
  induction data using feed.induct generalizing i with
  | case1 b0 b1 b2 b3 rest ih =>
    match i with
    | 0 => exact ⟨[b3, b2, b1], feed rest, rfl, rfl⟩
    | 1 => exact ⟨[b3, b2], b0 :: feed rest, rfl, rfl⟩
    | 2 => exact ⟨[b3], b1 :: b0 :: feed rest, rfl, rfl⟩
    | 3 => exact ⟨[], b2 :: b1 :: b0 :: feed rest, rfl, rfl⟩
    | i + 4 =>
      obtain ⟨before, after, fed, fedSet⟩ := ih (Nat.lt_of_add_lt_add_right inside)
      exact ⟨b3 :: b2 :: b1 :: b0 :: before, after, congrArg ([b3, b2, b1, b0] ++ ·) fed,
        congrArg ([b3, b2, b1, b0] ++ ·) fedSet⟩
  | case2 b0 b1 b2 =>
    match i with
    | 0 => exact ⟨[0, b2, b1], [], rfl, rfl⟩
    | 1 => exact ⟨[0, b2], [b0], rfl, rfl⟩
    | 2 => exact ⟨[0], [b1, b0], rfl, rfl⟩
  | case3 b0 b1 =>
    match i with
    | 0 => exact ⟨[0, 0, b1], [], rfl, rfl⟩
    | 1 => exact ⟨[0, 0], [b0], rfl, rfl⟩
  | case4 b0 =>
    match i with
    | 0 => exact ⟨[0, 0, 0], [], rfl, rfl⟩
  | case5 => exact absurd inside (Nat.not_lt_zero i)

/-- The folds agree up to the changed byte, differ after it, and differ to the end. -/
theorem checksum_set_ne {poly : Word} (odd : poly.getLsbD 0 = true) {data : List Byte} {i : Nat} {b : Byte}
    (inside : i < data.length) (changed : byteAt data i ≠ b) :
    checksum (tableOf poly) (data.set i b) ≠ checksum (tableOf poly) data := by
  obtain ⟨before, after, fed, fedSet⟩ := feed_set data b inside
  rw [checksum_eq_foldl_feed, checksum_eq_foldl_feed, fed, fedSet, List.foldl_append, List.foldl_append, List.foldl_cons,
    List.foldl_cons]
  intro same
  exact changed (fold_injective_byte odd _ (foldl_fold_injective odd after ((BitVec.xor_left_inj _).mp same))).symm

/-- Settles O16: with bit 0 of poly 1 no fold forgets a difference. -/
theorem oneByteChangeIsSeen : Obligations.OneByteChangeIsSeen :=
  fun _ _ _ _ odd inside changed => checksum_set_ne odd inside changed

/-! ### Padding, the empty input, and ones (R55, R57) -/

/-- The zeros R54 feeds for a short last group are the padding. -/
theorem feed_append_zeros (data : List Byte) {k : Nat} (full : (data.length + k) % 4 = 0) (few : k < 4) :
    feed (data ++ List.replicate k 0) = feed data := by
  induction data using feed.induct with
  | case1 b0 b1 b2 b3 rest ih =>
    rw [feed, ← ih (by simp only [List.length_cons] at full; omega)]
    rfl
  | case2 b0 b1 b2 =>
    obtain rfl : k = 1 := by simp only [List.length_cons, List.length_nil] at full; omega
    rfl
  | case3 b0 b1 =>
    obtain rfl : k = 2 := by simp only [List.length_cons, List.length_nil] at full; omega
    rfl
  | case4 b0 =>
    obtain rfl : k = 3 := by simp only [List.length_cons, List.length_nil] at full; omega
    rfl
  | case5 =>
    obtain rfl : k = 0 := by simp only [List.length_nil] at full; omega
    rfl

/-- Settles O13: the padded input is fed in the same order. -/
theorem zeroPaddingIsInvisible : Obligations.ZeroPaddingIsInvisible := by
  intro t data k full few
  rw [checksum_eq_foldl_feed, checksum_eq_foldl_feed, feed_append_zeros data full few]

theorem checksum_nil (t : Table) : checksum t [] = 0 := by
  rw [checksum_eq_foldl_feed]
  exact BitVec.xor_self

/-- Under a built table CHECKSUM answers the checksum. -/
theorem exec_checksum_of_valid {s : State} (data : List Byte) (built : s.tableValid = true) :
    exec (.checksum data) s = .next (s.complete (.word (checksum s.table data))) := by
  rw [exec_checksum, checksumNow_of_valid s data built]
  rfl

/-- Settles O12: no byte is fed, and ACC_INIT complemented is 0. -/
theorem emptyInputChecksumIsZero : Obligations.EmptyInputChecksumIsZero := by
  intro s built
  rw [exec_checksum_of_valid [] built, checksum_nil]
  rfl

/-- The byte that equals the top of the accumulator cancels it: the entry read is entry 0, which is 0. -/
theorem fold_top_byte (poly acc : Word) : fold (tableOf poly) acc ((acc >>> 24).setWidth 8) = acc <<< 8 := by
  rw [fold, tableIndex, BitVec.xor_self, readEntry_tableOf]
  exact (congrArg (acc <<< 8 ^^^ ·) (crcEntry_zero poly)).trans BitVec.xor_zero

/-- Four 0xFF bytes shift ACC_INIT out, whatever the generator. -/
theorem checksum_four_ones (poly : Word) : checksum (tableOf poly) [0xFF, 0xFF, 0xFF, 0xFF] = 0xFFFFFFFF := by
  have f1 : fold (tableOf poly) 0xFFFFFFFF 0xFF = 0xFFFFFF00 := fold_top_byte poly 0xFFFFFFFF
  have f2 : fold (tableOf poly) 0xFFFFFF00 0xFF = 0xFFFF0000 := fold_top_byte poly 0xFFFFFF00
  have f3 : fold (tableOf poly) 0xFFFF0000 0xFF = 0xFF000000 := fold_top_byte poly 0xFFFF0000
  have f4 : fold (tableOf poly) 0xFF000000 0xFF = 0 := fold_top_byte poly 0xFF000000
  rw [checksum_eq_foldl_feed, feed, feed, Config.accInit]
  simp only [List.foldl_cons, List.foldl_nil, f1, f2, f3, f4]
  rfl

/-- Settles O14: BUILD_TABLE leaves the table of poly, valid. -/
theorem fourOnesBytesGiveAllOnes : Obligations.FourOnesBytesGiveAllOnes := by
  intro poly s t ran
  rw [exec_buildTable] at ran
  cases ran
  rw [exec_checksum_of_valid _ rfl]
  exact congrArg (fun w => Host.Outcome.next (State.complete (.word w) _)) (checksum_four_ones poly)

/-! ### Tables of one entry (R57 (d), 10_state.md R21) -/

/-- Every entry is w ^ (w << 8), the one for which w is a fixed point of the fold. -/
def Fixes (t : Table) (w : Word) : Prop :=
  ∀ i : Byte, readEntry t i = w ^^^ (w <<< 8)

/-- Under such a table each byte, whatever it is, shifts the accumulator's difference from w by 8. -/
theorem foldl_fold_of_fixes {t : Table} {w : Word} (fixes : Fixes t w) (bytes : List Byte) (acc : Word) :
    bytes.foldl (fold t) acc = ((acc ^^^ w) <<< (8 * bytes.length)) ^^^ w := by
  induction bytes generalizing acc with
  | nil => simp
  | cons b bytes ih =>
    have once : fold t acc b ^^^ w = (acc ^^^ w) <<< 8 := by
      rw [fold, fixes, BitVec.shiftLeft_xor_distrib, BitVec.xor_comm w, ← BitVec.xor_assoc, BitVec.xor_assoc _ w,
        BitVec.xor_self, BitVec.xor_zero]
    rw [List.foldl_cons, ih, once, ← BitVec.shiftLeft_add, List.length_cons, Nat.mul_succ, Nat.add_comm]

theorem four_le_length_feed {data : List Byte} (nonempty : data ≠ []) : 4 ≤ (feed data).length := by
  induction data using feed.induct with
  | case1 => exact Nat.le_add_left 4 _
  | case2 | case3 | case4 => exact le_rfl
  | case5 => exact absurd rfl nonempty

/-- Four bytes shift the difference out, so every non-empty input has one checksum. -/
theorem checksum_of_fixes {t : Table} {w : Word} (fixes : Fixes t w) {data : List Byte} (nonempty : data ≠ []) :
    checksum t data = w ^^^ Config.xorOut := by
  have long := four_le_length_feed nonempty
  rw [checksum_eq_foldl_feed, foldl_fold_of_fixes fixes, BitVec.shiftLeft_eq_zero (by omega), BitVec.zero_xor]

/-- Settles O15: the entries of the zero polynomial are all 0, which fixes 0. -/
theorem zeroPolynomialGivesAllOnes : Obligations.ZeroPolynomialGivesAllOnes := by
  intro s t data ran nonempty
  have fixes : Fixes (tableOf 0) 0 := fun i => by rw [readEntry_tableOf, crcEntry_zero_poly]; rfl
  rw [exec_buildTable] at ran
  cases ran
  rw [exec_checksum_of_valid _ rfl]
  exact congrArg (fun w => Host.Outcome.next (State.complete (.word w) _)) (checksum_of_fixes fixes nonempty)

/-- The table whose entries are all w ^ (w << 8). -/
def constantTable (w : Word) : Table :=
  Vector.replicate 256 (w ^^^ (w <<< 8))

theorem fixes_constantTable (w : Word) : Fixes (constantTable w) w :=
  fun i => by simp [readEntry, constantTable]

/-- Settles O26: a constant table gives a non-empty payload any checksum; the empty payload's is 0 under every
table. -/
theorem someTableMakesTheFrame : Obligations.SomeTableMakesTheFrame := by
  intro p f
  constructor
  · rintro ⟨shape, emptyCrc⟩
    refine ⟨constantTable (f.crc32 ^^^ Config.xorOut), (frameInvariant_iff _ _ _).mpr ⟨shape, ?_⟩⟩
    by_cases empty : f.payload = []
    · rw [empty, checksum_nil, emptyCrc empty]
    · rw [checksum_of_fixes (fixes_constantTable _) empty, BitVec.xor_assoc, BitVec.xor_self, BitVec.xor_zero]
  · rintro ⟨t, inv⟩
    obtain ⟨shape, crc⟩ := (frameInvariant_iff _ _ _).mp inv
    exact ⟨shape, fun empty => by rw [crc, empty, checksum_nil]⟩

end Sys2Proof.Machine

/-! PROOFS of 41_frame.md section 2 and 42_ack.md: the operands FRAME_PACK and ACK_IS_ACK accept are the values operations
answer. -/

namespace Sys2Proof.Machine

open Sys2Proof.Spec

/-! ### Frames as operands (10_state.md R21, log 5) -/

/-- In a state that meets the block's invariant, an answered Frame is one of the polynomial in POLY. -/
theorem wellFormed_of_answered {i : Instr} {s t : State} {f : Frame} (inv : Invariant s) (ran : exec i s = .next t)
    (answered : t.result = some (.ok (.frame f))) : f.wellFormed s.params s.poly = true := by
  have ok := (exec_ok_iff (.frame f) ran).mp answered
  obtain ⟨frameInv, -⟩ := frameInvariant_of_ok ok
  rwa [inv.tableOfPoly (tableValid_of_frame ok)] at frameInv

/-- A block with the given parameters right after BUILD_TABLE of a polynomial. -/
def builtState (p : Params) (poly : Word) : State :=
  { State.reset with params := p, poly := poly, table := tableOf poly, tableValid := true }

theorem invariant_builtState (p : Params) (poly : Word) : Invariant (builtState p poly) :=
  ⟨fun _ => rfl, rfl⟩

/-- Settles O23: a record that passes is what its own packed bytes unpack to, and an answered Frame passes under POLY. -/
theorem frameOperandCheckIsExact : Obligations.FrameOperandCheckIsExact := by
  intro p f
  constructor
  · rintro ⟨madeUnder, wf⟩
    have unpacked : frameUnpack (builtState p madeUnder) (framePack f) = .ok f :=
      frameUnpack_framePack_of_invariant rfl wf
    exact ⟨builtState p madeUnder, _, .frameUnpack (framePack f), rfl, invariant_builtState p madeUnder,
      exec_frameUnpack_of_ok unpacked, rfl⟩
  · rintro ⟨s, t, i, rfl, inv, ran, answered⟩
    exact ⟨s.poly, wellFormed_of_answered inv ran answered⟩

section
variable {s : State} {c : Command} {rest : List HostEvent} {f : Frame} (first : s.pending = .present c :: rest)
  (decoded : decode c = .framePack f)
include first decoded

theorem step_packs_frame (inv : frameInvariant s.params (tableOf c.ports.madeUnder) f = true) :
    step s = .next ((s.takeEvent rest).complete (.bytes (framePack f))) := by
  rw [step_of_present first (by rw [decoded]; exact inv), decoded, exec_framePack]

theorem step_refuses_frame (notInv : frameInvariant s.params (tableOf c.ports.madeUnder) f = false) :
    step s = .refused .notAFrame := by
  rw [step_of_ill_formed first (by rw [decoded]; exact notInv), decoded]
  rfl

/-- A record whose crc32 is not its payload's checksum is no Frame. -/
theorem step_refuses_other_crc (mismatch : f.crc32 ≠ checksum (tableOf c.ports.madeUnder) f.payload) :
    step s = .refused .notAFrame := by
  refine step_refuses_frame first decoded (Bool.eq_false_iff.mpr fun inv => ?_)
  obtain ⟨-, crc⟩ := (frameInvariant_iff _ _ f).mp inv
  exact mismatch crc

end

/-- Settles O24: the check decides, and in the last two clauses the crc32 is not the payload's checksum. -/
theorem onlyFrameValuesArePacked : Obligations.OnlyFrameValuesArePacked := by
  intro s c rest f first decoded
  refine ⟨step_packs_frame first decoded, step_refuses_frame first decoded, fun g inv stale changed => ?_,
    fun ones otherCrc => ?_⟩
  · obtain ⟨-, crc⟩ := (frameInvariant_iff _ _ g).mp inv
    have sameCrc : f.crc32 = g.crc32 := by rw [stale]
    exact step_refuses_other_crc first decoded (by rw [sameCrc, crc]; exact changed.symm)
  · exact step_refuses_other_crc first decoded (by rw [ones, checksum_four_ones]; exact otherCrc)

/-- Settles O25: an answered Frame is well-formed under the polynomial in POLY, and packing reads no state. -/
theorem answeredFramesPackLater : Obligations.AnsweredFramesPackLater := by
  intro i s t u f rest inv ran answered params first
  have wf := wellFormed_of_answered inv ran answered
  rw [← params] at wf
  rw [step_of_encode first wf, exec_framePack]
  rfl

/-! ### Acks as operands (10_state.md R22, log 6) -/

theorem trimNul_append_zeros {m : List Byte} (trimmed : m.getLast? ≠ some 0) (k : Nat) :
    trimNul (m ++ List.replicate k 0) = m := by
  rw [trimNul_eq_rdropWhile]
  induction k with
  | zero =>
    rw [List.replicate_zero, List.append_nil, List.rdropWhile_eq_self_iff]
    intro nonempty zeroLast
    exact trimmed (by rw [List.getLast?_eq_getLast_of_ne_nil nonempty, eq_of_beq zeroLast])
  | succ k ih => rw [List.replicate_succ', ← List.append_assoc, List.rdropWhile_concat_pos _ _ 0 rfl, ih]

/-- The 262 bytes that hold an Ack's fields, its message filled up with zeros (30_encoding.md R44). -/
def ackRecord (a : Ack) : List Byte :=
  [a.ackStatus, a.responseToType] ++ leBytes 4 a.errorCode.toNat ++ a.errorMessage
    ++ List.replicate (256 - a.errorMessage.length) 0

/-- Every Ack value is what its own record parses to. -/
theorem ackParse_ackRecord {a : Ack} (wf : a.wellFormed = true) : ackParse (ackRecord a) = .ok a := by
  obtain ⟨short, trimmed⟩ := (wellFormed_ack_iff a).mp wf
  have length : (ackRecord a).length = 262 := by
    simp [ackRecord]
    omega
  have code : memRead (ackRecord a) 2 4 = a.errorCode.toNat := by
    have field : memRead (ackRecord a) 2 4 = leValue (leBytes 4 a.errorCode.toNat) := rfl
    rw [field, leValue_leBytes_of_lt a.errorCode.isLt]
  have message : slice (ackRecord a) 6 262 = a.errorMessage ++ List.replicate (256 - a.errorMessage.length) 0 := by
    rw [slice, List.take_of_length_le length.le]
    rfl
  rw [ackParse_of_long length.ge, ackInBuffer, code, message, trimNul_append_zeros trimmed, BitVec.ofNat_toNat,
    BitVec.setWidth_eq]
  rfl

/-- Settles O35: an Ack value is parsed from its record, and what is parsed is an Ack value. -/
theorem ackOperandCheckIsExact : Obligations.AckOperandCheckIsExact :=
  fun a => ⟨fun wf => ⟨ackRecord a, ackParse_ackRecord wf⟩, fun ⟨_, parsed⟩ => wellFormed_of_ackParse parsed⟩

/-! ### Status classes (42_ack.md R73) -/

/-- Settles O34: the three ranges of the status byte. -/
theorem ackStatusClasses : Obligations.AckStatusClasses := by
  intro a
  have zero : a.ackStatus = 0 ↔ a.ackStatus.toNat = 0 := BitVec.toNat_inj.symm
  have one : a.ackStatus = 1 ↔ a.ackStatus.toNat = 1 := BitVec.toNat_inj.symm
  simp only [ackIsAck, beq_iff_eq, ackClass, zero, one]
  by_cases isZero : a.ackStatus.toNat = 0
  · simp [isZero]
  · by_cases isOne : a.ackStatus.toNat = 1
    · simp [isOne]
    · have more : 2 ≤ a.ackStatus.toNat := by omega
      simp [isZero, isOne, more]

end Sys2Proof.Machine

/-! PROOFS of 43_host_contract.md sections 2 to 5: the header's checksum, building a datagram, and the transmitter's
moves. -/

namespace Sys2Proof.Machine

open Sys2Proof.Spec

/-! ### The header's checksum (R78, R79) -/

@[simp] theorem headerPreceding_length (h : DatagramHeader) : (headerPreceding h).length = 16 := rfl

@[simp] theorem headerBytes_length (h : DatagramHeader) : (headerBytes h).length = 20 := rfl

/-- What packet_crc32 is taken over behind the 16 preceding bytes, the same for every header. -/
def crcRangeTail : HdrCrcRange → List Byte
  | .preceding16 => []
  | .zeroed20 => [0, 0, 0, 0]

theorem headerCrcRange_eq (r : HdrCrcRange) (h : DatagramHeader) :
    headerCrcRange r h = headerPreceding h ++ crcRangeTail r := by
  cases r
  · exact (List.append_nil _).symm
  · rfl

theorem headerIntact_iff (t : Table) (r : HdrCrcRange) (h : DatagramHeader) :
    headerIntact t r h = true ↔ h.packetCrc32 = checksum t (headerPreceding h ++ crcRangeTail r) := by
  rw [headerIntact, beq_iff_eq, headerCrcRange_eq]

/-- No range covers packet_crc32 itself. -/
theorem headerIntact_sealHeader (t : Table) (r : HdrCrcRange) (h : DatagramHeader) :
    headerIntact t r (sealHeader t r h) = true := by
  rw [headerIntact_iff]
  exact congrArg (checksum t) (headerCrcRange_eq r h)

/-- The bytes of a field tell its value. -/
theorem leBytes_word_injective {v w : Word} (same : leBytes 4 v.toNat = leBytes 4 w.toNat) : v = w := by
  have values := congrArg leValue same
  rw [leValue_leBytes_of_lt (show v.toNat < 256 ^ 4 from v.isLt),
    leValue_leBytes_of_lt (show w.toNat < 256 ^ 4 from w.isLt)] at values
  exact BitVec.eq_of_toNat_eq values

theorem byteAt_set (buf : List Byte) {i : Nat} (b : Byte) (inside : i < buf.length) : byteAt (buf.set i b) i = b := by
  simp [byteAt, inside]

/-- A header one byte off is not intact: off before packet_crc32 its checksum is another, and in packet_crc32 it stores
another. -/
theorem headerIntact_of_set {poly : Word} (odd : poly.getLsbD 0 = true) {r : HdrCrcRange} {h g : DatagramHeader} {i : Nat}
    {b : Byte} (intact : headerIntact (tableOf poly) r h = true) (inside : i < 20) (changed : byteAt (headerBytes h) i ≠ b)
    (off : headerBytes g = (headerBytes h).set i b) : headerIntact (tableOf poly) r g = false := by
  have offBytes := off
  rw [headerIntact_iff] at intact
  refine Bool.eq_false_iff.mpr fun gIntact => ?_
  rw [headerIntact_iff] at gIntact
  rcases Nat.lt_or_ge i 16 with before | after
  · rw [headerBytes, headerBytes, List.set_append_left _ _ (by simpa using before)] at off
    obtain ⟨preceding, stored⟩ := List.append_inj off (by simp)
    have crc : g.packetCrc32 = h.packetCrc32 := leBytes_word_injective stored
    rw [headerBytes, byteAt_append_left _ _ i (by simpa using before)] at changed
    have inRange : i < (headerPreceding h ++ crcRangeTail r).length := by
      rw [List.length_append, headerPreceding_length]
      omega
    rw [← byteAt_append_left _ (crcRangeTail r) i (by simpa using before)] at changed
    refine checksum_set_ne odd inRange changed ?_
    rw [List.set_append_left _ _ (by simpa using before), ← preceding, ← gIntact, crc, intact]
  · rw [headerBytes, headerBytes, List.set_append_right _ _ (by simpa using after)] at off
    obtain ⟨preceding, -⟩ := List.append_inj off (by simp)
    have crc : g.packetCrc32 = h.packetCrc32 := by rw [gIntact, preceding, intact]
    have same : headerBytes g = headerBytes h := by rw [headerBytes, headerBytes, preceding, crc]
    rw [← same, offBytes, byteAt_set _ b (by simpa using inside)] at changed
    exact changed rfl

/-- Settles O48: sealing inserts the value the check recomputes, and one byte off shows. -/
theorem oneByteOfAHeaderIsSeen : Obligations.OneByteOfAHeaderIsSeen :=
  ⟨headerIntact_sealHeader, fun _ _ _ _ _ _ odd intact inside changed off =>
    headerIntact_of_set odd intact inside changed off⟩

/-! ### Building a datagram (R80, R81, R91) -/

theorem hostFrameNew_of_ok {s : State} {ty id sq : Nat} {payload : List Byte} {f : Frame}
    (made : frameNew s ty id sq payload = .ok f) : hostFrameNew s ty id sq payload = .ok f := by
  rw [hostFrameNew, made]

theorem hostFrameNew_error {s : State} {ty id sq : Nat} {payload : List Byte} {x : TransferError}
    (h : hostFrameNew s ty id sq payload = .error x) :
    ∃ e, x = .blockError e id sq ∧ frameNew s ty id sq payload = .error e := by
  unfold hostFrameNew at h
  split at h
  · next e failed => exact ⟨e, (Except.error.inj h).symm, failed⟩
  · cases h

theorem chunkCount_nil {c : Nat} (pos : 1 ≤ c) : chunkCount c [] = 0 :=
  Nat.div_eq_of_lt (by rw [List.length_nil]; omega)

/-- The header's 20 bytes go into a frame whenever they fit, with sequence_num 0 (R78). -/
theorem frameNew_header {s : State} {id : Nat} (built : s.tableValid = true) (idOk : id ≤ 0xFFFFFFFF)
    (room : 20 ≤ s.params.maxPayloadLen.val) (h : DatagramHeader) :
    ∃ f, frameNew s 0 id 0 (headerBytes h) = .ok f ∧ f.sequenceNum = 0 ∧ f.payload = headerBytes h :=
  ⟨_, frameNew_makes_frame ⟨Nat.zero_le _, idOk, Nat.two_pow_pos _, room⟩ built, rfl, rfl⟩

/-- Settles O47: an empty source has no chunk, its checksum is 0, and the header's frame can be made. -/
theorem emptySourceIsADatagram : Obligations.EmptySourceIsADatagram := by
  intro s hp target id pos built idOk room
  obtain ⟨f, made, number, carried⟩ :=
    frameNew_header built idOk room (datagramHeader s hp target id [] 0 (checksum s.table []))
  refine ⟨⟨datagramHeader s hp target id [] 0 (checksum s.table []), f, []⟩, ?_, rfl, rfl, rfl, checksum_nil s.table,
    number, carried⟩
  simp only [datagramFromBytes, chunkCount_nil pos, List.range'_zero, payloadFrames, checksumNow_of_valid s [] built,
    List.length_nil, hostFrameNew_of_ok made]

/-- FRAME_NEW of a payload frame, by its sequence number. -/
def payloadFrameNew (s : State) (hp : HostParams) (id : Nat) (source : List Byte) (i : Nat) : Except Error Frame :=
  frameNew s hp.frameTypePayload.toNat id i (chunkAt hp.chunkSize source i)

section
variable {s : State} {hp : HostParams} {id : Nat} {source : List Byte}

/-- Payload frames with successive numbers fail at the first one FRAME_NEW does not make. -/
theorem payloadFrames_error {a n : Nat} {x : TransferError}
    (h : payloadFrames s hp id source (List.range' a n) = .error x) :
    ∃ e sq, x = .blockError e id sq ∧ a ≤ sq ∧ sq < a + n ∧ payloadFrameNew s hp id source sq = .error e
      ∧ ∀ i, a ≤ i → i < sq → ∃ f, payloadFrameNew s hp id source i = .ok f := by
  induction n generalizing a with
  | zero => cases h
  | succ n ih =>
    rw [List.range'_succ] at h
    unfold payloadFrames at h
    split at h
    · next y failed =>
      cases h
      obtain ⟨e, named, err⟩ := hostFrameNew_error failed
      exact ⟨e, a, named, le_rfl, by omega, err, fun i low high => by omega⟩
    · next f made =>
      split at h
      · next y failed =>
        cases h
        obtain ⟨e, sq, named, low, high, err, earlier⟩ := ih failed
        refine ⟨e, sq, named, by omega, by omega, err, fun i from_a below => ?_⟩
        rcases Nat.eq_or_lt_of_le from_a with rfl | later
        · exact ⟨f, hostFrameNew_ok made⟩
        · exact earlier i later below
      · cases h

/-- When all payload frames are made, FRAME_NEW makes each. -/
theorem payloadFrames_ok_each {is : List Nat} {fs : List Frame} (h : payloadFrames s hp id source is = .ok fs) :
    ∀ i ∈ is, ∃ f, payloadFrameNew s hp id source i = .ok f := by
  have made := payloadFrames_ok h
  clear h
  intro i mem
  induction made with
  | nil => cases mem
  | @cons _ f _ _ first _ ih =>
    cases mem with
    | head => exact ⟨f, first⟩
    | tail _ later => exact ih later

/-- A datagram that is not built fails at a payload frame, at the checksum of its source, or at its header frame. -/
theorem datagramFromBytes_error {target : Byte} {x : TransferError}
    (h : datagramFromBytes s hp target id source = .error x) :
    payloadFrames s hp id source (List.range' 1 (chunkCount hp.chunkSize source)) = .error x
      ∨ ∃ frames, payloadFrames s hp id source (List.range' 1 (chunkCount hp.chunkSize source)) = .ok frames
          ∧ ((∃ e, x = .blockError e id 0 ∧ checksumNow s source = .error e)
            ∨ ∃ crc, checksumNow s source = .ok crc
                ∧ hostFrameNew s 0 id 0 (headerBytes (datagramHeader s hp target id source frames.length crc))
                    = .error x) := by
  unfold datagramFromBytes at h
  split at h
  · next y failed =>
    cases h
    exact .inl failed
  · next frames made =>
    refine .inr ⟨frames, made, ?_⟩
    split at h
    · next e failed => exact .inl ⟨e, (Except.error.inj h).symm, failed⟩
    · next crc summed =>
      dsimp only at h
      split at h
      · next y failed =>
        cases h
        exact .inr ⟨crc, summed, failed⟩
      · cases h

end

/-- Settles O52: by where the builder stopped. -/
theorem buildFailuresNameTheFrame : Obligations.BuildFailuresNameTheFrame := by
  intro s hp target id source x failed
  obtain inPayload | ⟨frames, made, atHeader⟩ := datagramFromBytes_error failed
  · obtain ⟨e, sq, named, low, high, err, earlier⟩ := payloadFrames_error inPayload
    exact ⟨e, sq, named, .inl ⟨low, by omega, err, earlier⟩⟩
  · have each : ∀ i, 1 ≤ i → i ≤ chunkCount hp.chunkSize source →
        ∃ f, payloadFrameNew s hp id source i = .ok f :=
      fun i low high => payloadFrames_ok_each made i (List.mem_range'_1.mpr ⟨low, by omega⟩)
    have count : frames.length = chunkCount hp.chunkSize source := by
      rw [← (payloadFrames_ok made).length_eq, List.length_range']
    obtain ⟨e, named, err⟩ | ⟨crc, summed, headerFailed⟩ := atHeader
    · exact ⟨e, 0, named, .inr ⟨rfl, each, .inl err⟩⟩
    · obtain ⟨e, named, err⟩ := hostFrameNew_error headerFailed
      rw [count] at err
      exact ⟨e, 0, named, .inr ⟨rfl, each, .inr ⟨crc, summed, err⟩⟩⟩

/-! ### Replies (R85, R91) -/

theorem onReply_ack_of_short (s : State) {b : List Byte} (short : b.length < 262) : onReply s (.ack b) = .retry := by
  rw [onReply, ackParse_of_short short]
  rfl

theorem onReply_ack_of_long (s : State) {b : List Byte} (long : 262 ≤ b.length) :
    onReply s (.ack b) = if ackIsAck (ackInBuffer b) then .advance (ackInBuffer b) else .retry := by
  rw [onReply, ackParse_of_long long]

theorem onReply_frame_of_error {s : State} {b : List Byte} {e : Error} (failed : frameUnpack s b = .error e) :
    onReply s (.frame b) = onError e := by
  rw [onReply, failed]

theorem onReply_frame_of_ok {s : State} {b : List Byte} {f : Frame} (read : frameUnpack s b = .ok f) :
    onReply s (.frame b) = .retry := by
  rw [onReply, read]

/-- No error lets the host advance. -/
theorem onError_ne_advance (e : Error) (a : Ack) : onError e ≠ .advance a := by
  cases e <;> exact nofun

/-- Only a record that parses with status 0 lets the host advance. -/
theorem onReply_advance {s : State} {r : Reply} {a : Ack} (h : onReply s r = .advance a) :
    ∃ b, r = .ack b ∧ ackParse b = .ok a ∧ a.ackStatus = 0 := by
  cases r with
  | timeout => cases h
  | ack b =>
    rcases Nat.lt_or_ge b.length 262 with short | long
    · rw [onReply_ack_of_short s short] at h
      cases h
    · rw [onReply_ack_of_long s long] at h
      split at h
      · next isAck =>
        cases h
        exact ⟨b, rfl, ackParse_of_long long, eq_of_beq isAck⟩
      · cases h
  | frame b =>
    rcases read : frameUnpack s b with e | f
    · rw [onReply_frame_of_error read] at h
      exact absurd h (onError_ne_advance e a)
    · rw [onReply_frame_of_ok read] at h
      cases h

/-- Settles O49: a reply by what the decoder makes of it. -/
theorem repliesLeadToTheirMoves : Obligations.RepliesLeadToTheirMoves := by
  refine ⟨fun _ => rfl, fun s b short => onReply_ack_of_short s short, fun s b long nonzero => ?_, fun s b long zero => ?_,
    fun s t b ran failed => ?_, fun s t b c ran failed => ?_, fun s t b ran failed => ?_, fun s t b f ran answered => ?_,
    fun s r a => onReply_advance⟩
  · have notAck : ackIsAck (ackInBuffer b) = false := ackIsAck_of_status_ne_zero nonzero
    rw [onReply_ack_of_long s long, notAck]
    rfl
  · have isAck : ackIsAck (ackInBuffer b) = true := ackIsAck_of_status_zero zero
    refine ⟨ackInBuffer b, ackParse_of_long long, ?_⟩
    rw [onReply_ack_of_long s long, isAck]
    rfl
  · exact onReply_frame_of_error ((exec_error_iff _ ran).mp failed)
  · exact onReply_frame_of_error ((exec_error_iff _ ran).mp failed)
  · exact onReply_frame_of_error ((exec_error_iff _ ran).mp failed)
  · obtain ⟨g, read, -⟩ := (exec_ok_iff (.frame f) ran).mp answered
    exact onReply_frame_of_ok read

/-! ### The transmitter's moves (R84 to R88) -/

/-- Settles O51: the move out of each verdict. -/
theorem everyVerdictLeadsToIdle : Obligations.EveryVerdictLeadsToIdle := by
  intro s maxRetries x working verdict
  obtain ⟨a, phase⟩ | phase | ⟨e, phase⟩ := verdict
  all_goals simp only [txStep, working, phase]

section
variable {s : State} {maxRetries : Nat} {x : Transmitter} (working : x.outcome = none) (waiting : x.phase = .awaitingAck)
include working waiting

theorem txStep_of_advance {a : Ack} (reply : onReply s (x.replies.headD .timeout) = .advance a) :
    txStep s maxRetries x = { x with replies := x.replies.tail, phase := .advancing a } := by
  simp only [txStep, working, waiting, reply]

theorem txStep_of_report {e : Error} (reply : onReply s (x.replies.headD .timeout) = .report e) :
    txStep s maxRetries x
      = { x with
          replies := x.replies.tail
          phase := .aborted (.blockError e (failedFrame x.todo).1.toNat (failedFrame x.todo).2.toNat) } := by
  simp only [txStep, working, waiting, reply]

theorem txStep_of_retry (reply : onReply s (x.replies.headD .timeout) = .retry) (left : x.retries < maxRetries) :
    txStep s maxRetries x = { x with replies := x.replies.tail, phase := .retrying } := by
  simp only [txStep, working, waiting, reply, left, if_true]

theorem txStep_of_exhausted (reply : onReply s (x.replies.headD .timeout) = .retry) (spent : maxRetries ≤ x.retries) :
    txStep s maxRetries x
      = { x with
          replies := x.replies.tail
          phase := .aborted (.retryExhausted (failedFrame x.todo).1 (failedFrame x.todo).2) } := by
  simp only [txStep, working, waiting, reply, spent.not_gt, if_false]

end

/-- Some number of moves takes x to y. -/
def Leads (s : State) (maxRetries : Nat) (x y : Transmitter) : Prop :=
  ∃ n, txRun s maxRetries n x = y

theorem Leads.trans {s : State} {maxRetries : Nat} {x y z : Transmitter} (first : Leads s maxRetries x y)
    (second : Leads s maxRetries y z) : Leads s maxRetries x z := by
  obtain ⟨m, rfl⟩ := first
  obtain ⟨n, rfl⟩ := second
  exact ⟨n + m, Function.iterate_add_apply _ n m x⟩

/-- A transmitter between two units: idle, the datagram not ended. -/
def idleAt (todo : List (List Frame)) (retries : Nat) (replies : List Reply) (written : List (List Byte))
    (acks : List Ack) : Transmitter :=
  { phase := .idle, todo := todo, retries := retries, replies := replies, written := written, acks := acks,
    outcome := none }

theorem txStart_eq_idleAt (units : List (List Frame)) (replies : List Reply) :
    txStart units replies = idleAt units 0 replies [] [] := rfl

theorem eq_idleAt {x : Transmitter} (idle : x.phase = .idle) (working : x.outcome = none) :
    x = idleAt x.todo x.retries x.replies x.written x.acks := by
  cases x
  cases idle
  cases working
  rfl

section
variable {s : State} {maxRetries retries : Nat} {u : List Frame} {later : List (List Frame)} {replies : List Reply}
  {written : List (List Byte)} {acks : List Ack}

/-- With no unit left the datagram completes. -/
theorem idleAt_leads_completed :
    Leads s maxRetries (idleAt [] retries replies written acks)
      { idleAt [] retries replies written acks with outcome := some .completed } :=
  ⟨1, rfl⟩

/-- Idle and Sending: the unit is written, and its acknowledgment awaited. -/
theorem idleAt_leads_awaiting :
    Leads s maxRetries (idleAt (u :: later) retries replies written acks)
      { idleAt (u :: later) retries replies (written ++ u.map framePack) acks with phase := .awaitingAck } :=
  ⟨2, rfl⟩

/-- AwaitingAck and Advancing: the unit is acknowledged, and the next one is up. -/
theorem idleAt_leads_next {a : Ack} (reply : onReply s (replies.headD .timeout) = .advance a) :
    Leads s maxRetries (idleAt (u :: later) retries replies written acks)
      (idleAt later 0 replies.tail (written ++ u.map framePack) (acks ++ [a])) :=
  idleAt_leads_awaiting.trans ⟨2, congrArg (txStep s maxRetries) (txStep_of_advance rfl rfl reply)⟩

/-- AwaitingAck and Retrying: while re-sends are left, the unit is up again. -/
theorem idleAt_leads_again (reply : onReply s (replies.headD .timeout) = .retry) (left : retries < maxRetries) :
    Leads s maxRetries (idleAt (u :: later) retries replies written acks)
      (idleAt (u :: later) (retries + 1) replies.tail (written ++ u.map framePack) acks) :=
  idleAt_leads_awaiting.trans ⟨2, congrArg (txStep s maxRetries) (txStep_of_retry rfl rfl reply left)⟩

/-- AwaitingAck and Aborted: with no re-send left the datagram fails with the frame's name. -/
theorem idleAt_leads_exhausted (reply : onReply s (replies.headD .timeout) = .retry) (spent : maxRetries ≤ retries) :
    Leads s maxRetries (idleAt (u :: later) retries replies written acks)
      { idleAt (u :: later) retries replies.tail (written ++ u.map framePack) acks with
        outcome := some (.failed (.retryExhausted (failedFrame (u :: later)).1 (failedFrame (u :: later)).2)) } :=
  idleAt_leads_awaiting.trans ⟨2, congrArg (txStep s maxRetries) (txStep_of_exhausted rfl rfl reply spent)⟩

/-- AwaitingAck and Aborted: an error the host does not retry ends the datagram at once. -/
theorem idleAt_leads_reported {e : Error} (reply : onReply s (replies.headD .timeout) = .report e) :
    Leads s maxRetries (idleAt (u :: later) retries replies written acks)
      { idleAt (u :: later) retries replies.tail (written ++ u.map framePack) acks with
        outcome := some (.failed (.blockError e (failedFrame (u :: later)).1.toNat (failedFrame (u :: later)).2.toNat)) } :=
  idleAt_leads_awaiting.trans ⟨2, congrArg (txStep s maxRetries) (txStep_of_report rfl rfl reply)⟩

end

/-- The transmitter stands as send_frame's return says: idle at the later units with the Ack kept, or failed with the
error (R85). -/
def Returned (later : List (List Frame)) (acks : List Ack) (r : Except TransferError Ack) (y : Transmitter) : Prop :=
  match r with
  | .ok a => y.phase = .idle ∧ y.todo = later ∧ y.acks = acks ++ [a] ∧ y.outcome = none
  | .error e => y.outcome = some (.failed e)

/-- From every idle transmitter with the frame up, the re-sends left being those send_frame is given. -/
theorem idleAt_leads_returned (s : State) (f : Frame) (later : List (List Frame)) (left retries : Nat)
    (replies : List Reply) (written : List (List Byte)) (acks : List Ack) :
    ∃ y, Leads s (retries + left) (idleAt ([f] :: later) retries replies written acks) y
      ∧ Returned later acks (sendFrame s f left replies) y := by
  induction left generalizing retries replies written with
  | zero =>
    unfold sendFrame
    rcases reply : onReply s (replies.headD .timeout) with a | _ | e
    · exact ⟨_, idleAt_leads_next reply, rfl, rfl, rfl, rfl⟩
    · exact ⟨_, idleAt_leads_exhausted reply le_rfl, rfl⟩
    · exact ⟨_, idleAt_leads_reported reply, rfl⟩
  | succ left ih =>
    unfold sendFrame
    rcases reply : onReply s (replies.headD .timeout) with a | _ | e
    · exact ⟨_, idleAt_leads_next reply, rfl, rfl, rfl, rfl⟩
    · obtain ⟨y, rest, returned⟩ := ih (retries + 1) replies.tail (written ++ [f].map framePack)
      rw [Nat.add_right_comm] at rest
      exact ⟨y, (idleAt_leads_again reply (by omega)).trans rest, returned⟩
    · exact ⟨_, idleAt_leads_reported reply, rfl⟩

/-- Settles O50: by induction on the re-sends left, as send_frame recurs. -/
theorem transmitterMeetsSendFrame : Obligations.TransmitterMeetsSendFrame := by
  intro s maxRetries f later replies
  obtain ⟨y, ⟨n, ran⟩, returned⟩ := idleAt_leads_returned s f later maxRetries 0 replies [] []
  rw [Nat.zero_add] at ran
  refine ⟨n, ?_⟩
  rw [txStart_eq_idleAt, ran]
  exact returned

/-- A wait beyond the list is a timeout, which leads to a retry as all replies of the list do. -/
theorem onReply_headD_retry {s : State} {replies : List Reply} (all : ∀ r ∈ replies, onReply s r = .retry) :
    onReply s (replies.headD .timeout) = .retry := by
  cases replies with
  | nil => rfl
  | cons r rest => exact all r List.mem_cons_self

/-- With k re-sends left and retries only, a unit is written k + 1 times and the datagram fails. -/
theorem idleAt_leads_failed (s : State) (f : Frame) (fs : List Frame) (later : List (List Frame)) (k retries : Nat)
    (replies : List Reply) (written : List (List Byte)) (acks : List Ack) (all : ∀ r ∈ replies, onReply s r = .retry) :
    ∃ y, Leads s (retries + k) (idleAt ((f :: fs) :: later) retries replies written acks) y
      ∧ y.outcome = some (.failed (.retryExhausted f.datagramId f.sequenceNum))
      ∧ y.written = written ++ (List.replicate (k + 1) ((f :: fs).map framePack)).flatten ∧ y.acks = acks := by
  have reply := onReply_headD_retry all
  induction k generalizing retries replies written with
  | zero => exact ⟨_, idleAt_leads_exhausted reply le_rfl, rfl, by simp [idleAt], rfl⟩
  | succ k ih =>
    have allTail : ∀ r ∈ replies.tail, onReply s r = .retry := fun r mem => all r (List.mem_of_mem_tail mem)
    obtain ⟨y, rest, failed, sent, kept⟩ :=
      ih (retries + 1) replies.tail (written ++ (f :: fs).map framePack) allTail (onReply_headD_retry allTail)
    rw [Nat.add_right_comm] at rest
    refine ⟨y, (idleAt_leads_again reply (by omega)).trans rest, failed, ?_, kept⟩
    rw [sent, List.append_assoc, List.replicate_succ (n := k + 1), List.flatten_cons]

/-- Settles O53: the first clause is the second from the start, with a unit of one frame. -/
theorem retryBoundIsExact : Obligations.RetryBoundIsExact := by
  constructor
  · intro s maxRetries f later replies all
    obtain ⟨y, ⟨n, ran⟩, failed, sent, -⟩ := idleAt_leads_failed s f [] later maxRetries 0 replies [] [] all
    rw [Nat.zero_add, ← txStart_eq_idleAt] at ran
    refine ⟨n, ran ▸ failed, ?_⟩
    rw [ran, sent]
    simp
  · intro s maxRetries x f fs later idle working fresh todo all
    obtain ⟨y, ⟨n, ran⟩, failed, sent, kept⟩ :=
      idleAt_leads_failed s f fs later maxRetries 0 x.replies x.written x.acks all
    rw [Nat.zero_add, ← todo, ← fresh, ← eq_idleAt idle working] at ran
    exact ⟨n, ran ▸ failed, ran ▸ sent, ran ▸ kept⟩

/-- With an acknowledgment for every unit, every unit is written once and its Ack kept. -/
theorem idleAt_leads_all_sent (s : State) (maxRetries : Nat) (units : List (List Frame)) (retries : Nat)
    (replies : List Reply) (written : List (List Byte)) (acks : List Ack) (enough : units.length ≤ replies.length)
    (all : ∀ r ∈ replies, ∃ a, onReply s r = .advance a) :
    ∃ y, Leads s maxRetries (idleAt units retries replies written acks) y ∧ y.outcome = some .completed
      ∧ y.written = written ++ units.flatten.map framePack
      ∧ y.acks.map HostMove.advance = acks.map HostMove.advance ++ (replies.take units.length).map (onReply s) := by
  induction units generalizing retries replies written acks with
  | nil => exact ⟨_, idleAt_leads_completed, rfl, by simp [idleAt], by simp [idleAt]⟩
  | cons u later ih =>
    obtain _ | ⟨r, rest⟩ := replies
    · cases enough
    · obtain ⟨⟨a, advances⟩, allRest⟩ := List.forall_mem_cons.mp all
      obtain ⟨y, moves, completed, sent, kept⟩ :=
        ih 0 rest (written ++ u.map framePack) (acks ++ [a]) (Nat.le_of_succ_le_succ enough) allRest
      refine ⟨y, (idleAt_leads_next advances).trans moves, completed, ?_, ?_⟩
      · rw [sent, List.flatten_cons, List.map_append, List.append_assoc]
      · rw [kept, List.map_append, List.append_assoc, List.length_cons, List.take_succ_cons, List.map_cons (f := onReply s),
          advances]
        rfl

/-- Settles O54: by induction on the units. -/
theorem cleanRepliesComplete : Obligations.CleanRepliesComplete := by
  intro s maxRetries units replies enough all
  obtain ⟨y, ⟨n, ran⟩, completed, sent, kept⟩ :=
    idleAt_leads_all_sent s maxRetries units 0 replies [] [] enough all
  rw [← txStart_eq_idleAt] at ran
  exact ⟨n, ran ▸ completed, ran ▸ sent, ran ▸ kept⟩

end Sys2Proof.Machine
